-- ==== Sys2Proof/Word.lean ====
section
/-! DEFINITION. The word types of the HAM74 core, one name for each width the spec fixes (`00_scope.md` R8, R9). -/

namespace Sys2Proof

/-- The command word `CMD`, `CMD_W` = 32 bits (R8, R70). -/
abbrev CmdWord := BitVec 32

/-- An operand (`OPA`, `OPB`) or the result `RES`, `OP_W` = 64 bits (R8). -/
abbrev Operand := BitVec 64

/-- The status register, `STAT_W` = 8 bits (R8, R35). -/
abbrev StatWord := BitVec 8

/-- A 7-bit codeword or received word; position `p` is bit `6 - p` (R11). -/
abbrev Codeword := BitVec 7

/-- A 3-bit syndrome vector; character `i` is bit `2 - i` (R11). -/
abbrev Syndrome := BitVec 3

/-- A 4-bit data value (R14, "Data row"). -/
abbrev Nibble := BitVec 4

/-- One byte of an operand word (R52). -/
abbrev Byte := BitVec 8

end Sys2Proof
end

