-- ==== Sys2Proof/Config.lean ====
section
/-! DEFINITION. What the implementation fixes, and the free values: what the spec leaves open (`00_scope.md` R8, `10_state.md` R37). -/

namespace Sys2Proof.Config

/-- `MAXDIM`: the largest matrix dimension MATMUL accepts (R8). -/
def maxDim : Nat := 8

/-- The free value behind `LATENCY`: nothing in Lean can say which number it is. -/
opaque latencyPred : Nat

/-- `LATENCY` of the unit that `State.reset` describes: an integer ≥ 1 that the spec leaves OPEN
(R8, R168). DESIGN CHOICE, log entry 2: an opaque number plus one. -/
def latency : Nat := latencyPred + 1

/-- The CMD latch after the reset numbered `n`: "unspecified", an arbitrary draw (R37). Free value, log entry 3. -/
opaque latchCmdAtReset : Nat → CmdWord

/-- The OPA latch after the reset numbered `n`: "unspecified", an arbitrary draw (R37). Free value, log entry 3. -/
opaque latchOpaAtReset : Nat → Operand

/-- The OPB latch after the reset numbered `n`: "unspecified", an arbitrary draw (R37). Free value, log entry 3. -/
opaque latchOpbAtReset : Nat → Operand

/-- The corrected word of the received word `r` when SYNTAB holds a VALID entry with POS = 7. R127 flips the
codeword position POS, and there is no position 7. Only tables that R31 excludes hold such an entry.
Free value, log entry 8. -/
opaque correctedAtNoPosition : Codeword → Codeword

end Sys2Proof.Config
end

