-- ==== Sys2Proof/Syntax.lean ====
section
/-! DEFINITION. The instructions of the HAM74 core: one constructor per row of spec/opcode_table.json (`30_encoding.md` R73). -/

namespace Sys2Proof

/-- The seven operations of R73, as `Decode` returns them (R77). The operand words OPA and OPB are no part of an
instruction: they arrive beside the command word (R70). -/
inductive Instr where
  /-- MATMUL with A of `m` × `nA` and B of `nB` × `p` (R100). The dimensions are the decoded ones, 1..8 (R71). -/
  | matmul (m nA nB p : Nat)
  /-- ENC: encode a nibble to a codeword vector (R112). -/
  | enc
  /-- ENCS: encode a nibble to a 7-character string (R113). -/
  | encs
  /-- SYN: syndrome and error position of a binary codeword (R128). -/
  | syn
  /-- CORR: single-bit correction of a binary codeword (R129). -/
  | corr
  /-- DEC: full decode of a binary codeword (R130). -/
  | dec
  /-- DECS: full decode of a 7-character string (R132). -/
  | decs
deriving DecidableEq, Repr

end Sys2Proof
end

