-- ==== Sys2Proof/WellFormed.lean ====
section
/-! DEFINITION. Which instructions can be encoded: every matrix dimension is 1..MAXDIM (`00_scope.md` R8, `30_encoding.md` R71, R78). -/

namespace Sys2Proof

/-- A matrix dimension is 1..8 (R8). A zero dimension cannot be encoded (R71). -/
def dimOk (d : Nat) : Bool := decide (1 ≤ d) && decide (d ≤ Config.maxDim)

/-- The check of R78: "each of m, nA, nB, p must be 1..8". The other operations carry no field to check. -/
def Instr.wellFormed : Instr → Bool
  | .matmul m nA nB p => dimOk m && dimOk nA && dimOk nB && dimOk p
  | .enc => true
  | .encs => true
  | .syn => true
  | .corr => true
  | .dec => true
  | .decs => true

end Sys2Proof
end

