-- ==== Sys2Proof/Decode.lean ====
section
/-! DEFINITION. The command-word decoder, total on all 2^32 words, and the encoder (`30_encoding.md` R70-R77). -/

namespace Sys2Proof

/-- Why a command word is illegal: the three classes of R75. -/
inductive IllegalWord where
  /-- OP is 0x0 or 0x8..0xF. -/
  | reservedOp (op : BitVec 4)
  /-- OP is MATMUL and `CMD[31:16]` is not 0. -/
  | matmulReservedBits (rsvd : BitVec 16)
  /-- OP is 0x2..0x7 and `CMD[31:4]` is not 0. -/
  | reservedBits (op : BitVec 4) (rsvd : BitVec 28)
deriving DecidableEq, Repr

/-- What `Decode(CMD)` returns (R77): one operation, or ILLEGAL, here with the reason. -/
inductive Decoded where
  | instr (i : Instr)
  | illegal (why : IllegalWord)
deriving DecidableEq, Repr

/-- The field `OP = CMD[3:0]` (R70). -/
def opField (cmd : CmdWord) : BitVec 4 := cmd.extractLsb' 0 4

/-- The dimension whose field starts at bit `lo`: the unsigned 3-bit field plus one (R71). -/
def dimField (cmd : CmdWord) (lo : Nat) : Nat := (cmd.extractLsb' lo 3).toNat + 1

/-- The six operations without fields, by OP (R73); `none` for MATMUL's OP and the reserved ones. -/
def plainOp (op : BitVec 4) : Option Instr :=
  match op with
  | 0x2#4 => some .enc
  | 0x3#4 => some .encs
  | 0x4#4 => some .syn
  | 0x5#4 => some .corr
  | 0x6#4 => some .dec
  | 0x7#4 => some .decs
  | _ => none

/-- `Decode(CMD)` of R77. -/
def decode (cmd : CmdWord) : Decoded :=
  if opField cmd = 0x1#4 then
    if cmd.extractLsb' 16 16 = 0#16 then
      .instr (.matmul (dimField cmd 4) (dimField cmd 7) (dimField cmd 10) (dimField cmd 13))
    else .illegal (.matmulReservedBits (cmd.extractLsb' 16 16))
  else
    match plainOp (opField cmd) with
    | none => .illegal (.reservedOp (opField cmd))
    | some i =>
      if cmd.extractLsb' 4 28 = 0#28 then .instr i
      else .illegal (.reservedBits (opField cmd) (cmd.extractLsb' 4 28))

/-- A dimension as its field, `d - 1`, placed at bit `lo` (R71, R78). -/
def dimBits (d lo : Nat) : CmdWord := BitVec.ofNat 32 (d - 1) <<< lo

/-- The command word of an instruction, from the patterns of R74 and the formula of R78. -/
def encode : Instr → CmdWord
  | .matmul m nA nB p => 0x1#32 ||| dimBits m 4 ||| dimBits nA 7 ||| dimBits nB 10 ||| dimBits p 13
  | .enc => 0x00000002#32
  | .encs => 0x00000003#32
  | .syn => 0x00000004#32
  | .corr => 0x00000005#32
  | .dec => 0x00000006#32
  | .decs => 0x00000007#32

/-- One row of the match table of R74. -/
structure PatternRow where
  mask : CmdWord
  pattern : CmdWord
deriving DecidableEq, Repr

/-- A command word selects a row when it matches the row's full pattern (R74). -/
def PatternRow.selects (row : PatternRow) (cmd : CmdWord) : Bool := (cmd &&& row.mask) == row.pattern

/-- The match table of R74, in its order: MATMUL, ENC, ENCS, SYN, CORR, DEC, DECS. -/
def patternTable : List PatternRow :=
  [⟨0xFFFF000F#32, 0x00000001#32⟩, ⟨0xFFFFFFFF#32, 0x00000002#32⟩, ⟨0xFFFFFFFF#32, 0x00000003#32⟩,
   ⟨0xFFFFFFFF#32, 0x00000004#32⟩, ⟨0xFFFFFFFF#32, 0x00000005#32⟩, ⟨0xFFFFFFFF#32, 0x00000006#32⟩,
   ⟨0xFFFFFFFF#32, 0x00000007#32⟩]

/-- The row of the match table an instruction stands in (R74). -/
def patternRow : Instr → PatternRow
  | .matmul _ _ _ _ => ⟨0xFFFF000F#32, 0x00000001#32⟩
  | .enc => ⟨0xFFFFFFFF#32, 0x00000002#32⟩
  | .encs => ⟨0xFFFFFFFF#32, 0x00000003#32⟩
  | .syn => ⟨0xFFFFFFFF#32, 0x00000004#32⟩
  | .corr => ⟨0xFFFFFFFF#32, 0x00000005#32⟩
  | .dec => ⟨0xFFFFFFFF#32, 0x00000006#32⟩
  | .decs => ⟨0xFFFFFFFF#32, 0x00000007#32⟩

/-- The command word whose low `nbits` bits are those of `w`, and whose other bits are 0. A command word is one
32-bit port value (R70, R72): there is no byte order to settle. -/
def tableCommand (nbits w : Nat) : CmdWord := BitVec.ofNat 32 (w % 2 ^ nbits)

/-- The instruction the decoder reads from a row of spec/opcode_table.json, `none` where the word is illegal. -/
def decodeTableWord (nbits w : Nat) : Option Instr :=
  match decode (tableCommand nbits w) with
  | .instr i => some i
  | .illegal _ => none

end Sys2Proof
end

