-- ==== Sys2Proof/Machine/Operands.lean ====
section
/-! DEFINITION. Every operand form: GF(2) sums, bytes, packed matrices and character strings (`00_scope.md` R10-R12,
`20_memory.md` R52-R55, `42_decoder.md` R121, R122). -/

namespace Sys2Proof.Machine

/-- `XOR_{k=0..n-1} f(k)`, and 0 when `n = 0` (R10). -/
def xorBelow : Nat → (Nat → Bool) → Bool
  | 0, _ => false
  | n + 1, f => xorBelow n f ^^ f n

/-- `parity(v)`: the XOR of all bits of `v` (R10). -/
def parity {w : Nat} (v : BitVec w) : Bool := xorBelow w v.getLsbD

/-- The `w`-bit vector whose bit `k` is `f k`. -/
def packBits : (w : Nat) → (Nat → Bool) → BitVec w
  | 0, _ => 0#0
  | w + 1, f => BitVec.cons (f w) (packBits w f)

/-- `byte_k(X) = X[8k+7 : 8k]` (R52). -/
def byteOf (x : Operand) (k : Nat) : Byte := x.extractLsb' (8 * k) 8

/-- Reading a packed matrix with `c` columns: `A(i,j) = X[8i + c-1-j]` (R53). -/
def matrixElem (x : Operand) (c i j : Nat) : Bool := x.getLsbD (8 * i + (c - 1 - j))

/-- Writing an `r` × `c` matrix: bit `8i + c-1-j` takes element `(i,j)`, and every other bit is 0 (R53). -/
def packMatrix (r c : Nat) (elem : Nat → Nat → Bool) : Operand :=
  packBits 64 fun b => decide (b / 8 < r) && decide (b % 8 < c) && elem (b / 8) (c - 1 - b % 8)

/-- The 7×1 column of a codeword: element `(i,0)` is `CW[6-i]`, at bit `8i` (R54). -/
def packColumn (cw : Codeword) : Operand := packMatrix 7 1 fun i _ => cw.getLsbD (6 - i)

/-- A character of a bit string: '0' is byte 0x30 and '1' is byte 0x31 (R55; the ASCII values are PRESUMED by the
spec itself, log entry 13). -/
def bitChar (b : Bool) : Byte := if b then 0x31#8 else 0x30#8

/-- Packing a character string: character `k` is byte `k`, the unused bytes are 0x00 (R55). -/
def packString : List Byte → Operand
  | [] => 0#64
  | c :: cs => c.setWidth 64 ||| (packString cs <<< 8)

/-- `len(X)`: the smallest `k` with `byte_k(X) = 0x00`, or 8 when there is none (R55). -/
def stringLength (x : Operand) : Nat :=
  ((List.range 8).takeWhile fun k => byteOf x k != 0x00#8).length

/-- `str_7(CW)` packed: character `j` is codeword position `j`, byte 7 is 0x00 (R55, R113). -/
def renderCodeword (cw : Codeword) : Operand :=
  packString ((List.range 7).map fun j => bitChar (cw.getLsbD (6 - j)))

/-- Binary-form codeword operand: `r = OPA[6:0]`, malformed when `OPA[63:7]` is not 0 (R121). -/
def parseBinary (x : Operand) : Option Codeword :=
  if x.extractLsb' 7 57 = 0#57 then some (x.extractLsb' 0 7) else none

/-- Character-form codeword operand: malformed when the length is not 7 or a character is neither '0' nor '1';
otherwise `r[6-k] = byte_k(OPA) - 0x30` (R122). -/
def parseChars (x : Operand) : Option Codeword :=
  if stringLength x = 7 then
    if (List.range 7).all fun k => byteOf x k == 0x30#8 || byteOf x k == 0x31#8 then
      some (packBits 7 fun b => (byteOf x (6 - b) - 0x30#8).getLsbD 0)
    else none
  else none

end Sys2Proof.Machine
end

