-- ==== Sys2Proof/Machine/CodeTables.lean ====
section
/-! DEFINITION. The code tables G, H and SYNTAB: their shape, the default, and which triples are admissible
(`10_state.md` R26-R33). -/

namespace Sys2Proof.Machine

/-- One entry of SYNTAB: `(VALID: 1 bit, POS: 3 bits)` (R28). -/
structure SynEntry where
  valid : Bool
  pos : BitVec 3
deriving DecidableEq, Repr

/-- `CODE_TABLES`, the triple (G, H, SYNTAB) (R8): GROM as four row words (R26), HROM as three row words (R27), and
SYNTAB as eight entries indexed by the syndrome vector (R28). -/
structure CodeTables where
  grow : Vector Codeword 4
  hrow : Vector Codeword 3
  syntab : Vector SynEntry 8
deriving DecidableEq, Repr

/-- The default tables of R33: G_B with the systematic H, and SYNTAB listed for S = 000, 001, ..., 111. For entry 000 the
spec gives VALID = 0 only (R28, R31, R33): its POS = 0 is the model's. DESIGN CHOICE, unsafe, log entry 16. -/
def CodeTables.default : CodeTables where
  grow := #v[0x68#7, 0x54#7, 0x32#7, 0x71#7]
  hrow := #v[0x4D#7, 0x2B#7, 0x17#7]
  syntab := #v[⟨false, 0⟩, ⟨true, 2⟩, ⟨true, 1⟩, ⟨true, 5⟩, ⟨true, 0⟩, ⟨true, 4⟩, ⟨true, 3⟩, ⟨true, 6⟩]

/-- `SYNTAB[S]` (R28). -/
def CodeTables.lookup (t : CodeTables) (s : Syndrome) : SynEntry := t.syntab[s.toFin]

/-- The 3-bit vector `(b0, b1, b2)` with character 0 as the most significant bit (R11). -/
def threeBits (b0 b1 b2 : Bool) : BitVec 3 := BitVec.ofBool b0 ++ BitVec.ofBool b1 ++ BitVec.ofBool b2

/-- `col_j(H) = (H(0,j), H(1,j), H(2,j))` for codeword position `j` (R31). -/
def CodeTables.column (t : CodeTables) (j : Nat) : Syndrome :=
  threeBits (t.hrow[0].getLsbD (6 - j)) (t.hrow[1].getLsbD (6 - j)) (t.hrow[2].getLsbD (6 - j))

/-- The codeword of data value `v`: `CW = XOR_{k=0..3} (v[3-k] ? GROW[k] : 0)` (R111). -/
def CodeTables.codeword (t : CodeTables) (v : Nibble) : Codeword :=
  (List.finRange 4).foldl (fun cw k => if v.getLsbD (3 - k.val) then cw ^^^ t.grow[k] else cw) 0#7

/-- The syndrome of a received word: `S = (s_0, s_1, s_2)` with `s_i = parity(HROW[i] AND r)` (R123). -/
def CodeTables.syndrome (t : CodeTables) (r : Codeword) : Syndrome :=
  threeBits (parity (t.hrow[0] &&& r)) (parity (t.hrow[1] &&& r)) (parity (t.hrow[2] &&& r))

/-- R29: G is systematic, with its data part in columns 3..6: `GROW[k][3:0] = 1 << (3-k)`. -/
abbrev CodeTables.Systematic (t : CodeTables) : Prop :=
  ∀ k : Fin 4, (t.grow[k]).extractLsb' 0 4 = 1#4 <<< (3 - k.val)

/-- R30: H annihilates every codeword: `parity(HROW[i] AND GROW[k]) = 0` for every `i` and `k`. -/
abbrev CodeTables.Annihilates (t : CodeTables) : Prop :=
  ∀ i : Fin 3, ∀ k : Fin 4, parity (t.hrow[i] &&& t.grow[k]) = false

/-- R31: the columns of H are distinct and nonzero, SYNTAB maps each to its position, entry 000 is invalid, and
column 0 is 100. -/
abbrev CodeTables.SyntabAgrees (t : CodeTables) : Prop :=
  (∀ i j : Fin 7, t.column i.val = t.column j.val → i = j) ∧
  (∀ j : Fin 7, t.column j.val ≠ 0#3) ∧
  (∀ j : Fin 7, t.lookup (t.column j.val) = ⟨true, BitVec.ofNat 3 j.val⟩) ∧
  (t.lookup 0#3).valid = false ∧
  t.column 0 = 0b100#3

/-- The admissible tables: those satisfying R29-R31 (R8, R33). -/
abbrev CodeTables.Admissible (t : CodeTables) : Prop := t.Systematic ∧ t.Annihilates ∧ t.SyntabAgrees

/-- The document's encode examples: `encode(10) = "1011010"` and `encode(11) = "0101011"` (R32). With R29-R31 they
leave the 48 triples of R32. -/
abbrev CodeTables.MeetsExamples (t : CodeTables) : Prop :=
  t.codeword 10#4 = 0b1011010#7 ∧ t.codeword 11#4 = 0b0101011#7

end Sys2Proof.Machine
end

