-- ==== Sys2Proof/Machine/Flags.lean ====
section
/-! DEFINITION. Status codes and the flag-like outputs: STAT.CODE and the decode-information layout with ERR
(`10_state.md` R35, R38, `42_decoder.md` R126, `60_exceptions.md` R141). -/

namespace Sys2Proof.Machine

/-- Every status STAT.CODE can name (R141). -/
inductive Status where
  | none
  | ok
  | dimMismatch
  | outOfRange
  | malformedCodeword
  | unmappedSyndrome
  | illegalOp
deriving DecidableEq, Repr

/-- The numeric code of a status (R141). -/
def Status.code : Status → StatWord
  | .none => 0#8
  | .ok => 1#8
  | .dimMismatch => 2#8
  | .outOfRange => 3#8
  | .malformedCodeword => 4#8
  | .unmappedSyndrome => 5#8
  | .illegalOp => 6#8

/-- Reading a status word back: codes 7..255 name no status, and an input that claims to hold one is not accepted
(R141, `93_implementation_defined.md` U10). -/
def Status.ofCode? (c : StatWord) : Option Status :=
  match c with
  | 0#8 => some .none
  | 1#8 => some .ok
  | 2#8 => some .dimMismatch
  | 3#8 => some .outOfRange
  | 4#8 => some .malformedCodeword
  | 5#8 => some .unmappedSyndrome
  | 6#8 => some .illegalOp
  | _ => Option.none

/-- The pair an operation ends in, `finish(c, v)` (`00_scope.md` R13). -/
structure Completion where
  status : Status
  res : Operand
deriving DecidableEq, Repr

/-- `finish(OK, v)`. -/
def Completion.ok (v : Operand) : Completion := ⟨.ok, v⟩

/-- `raise E = finish(E, 0)` (R13, R143). -/
def Completion.error (e : Status) : Completion := ⟨e, 0#64⟩

/-- The outputs of the syndrome decoder: S, ERR and POS (R124, R125). -/
structure ErrorInfo where
  synd : Syndrome
  err : Bool
  pos : BitVec 3
deriving DecidableEq, Repr

/-- The decode-information layout `zext_64(POS, 0, S, ERR, PAYLOAD)` (R126). -/
def decodeInfo (e : ErrorInfo) (payload : Codeword) : Operand :=
  (e.pos ++ 0#1 ++ e.synd ++ BitVec.ofBool e.err ++ payload).setWidth 64

/-- The field PAYLOAD, `RES[6:0]` (R126). -/
def payloadField (res : Operand) : Codeword := res.extractLsb' 0 7

/-- DATA of a DEC or DECS result, `RES[3:0]` (R126, R130). -/
def dataField (res : Operand) : Nibble := res.extractLsb' 0 4

/-- The flag ERR, `RES[7]` (R38, R126). -/
def errField (res : Operand) : Bool := res.getLsbD 7

/-- The field SYND, `RES[10:8]` (R126). -/
def syndField (res : Operand) : Syndrome := res.extractLsb' 8 3

/-- The field POS, `RES[14:12]` (R126). -/
def posField (res : Operand) : BitVec 3 := res.extractLsb' 12 3

end Sys2Proof.Machine
end

