-- ==== Sys2Proof/Machine/State.lean ====
section
/-! DEFINITION. The state of the unit, the host's inputs as plain data, the reasons a step can stop, and reset
(`10_state.md`, `70_reset_and_hazards.md` R160). -/

namespace Sys2Proof.Machine

/-- The faults of the machine: none. Every request completes with a defined status, and no behaviour of this unit is a
model fault (`60_exceptions.md` R140, R149, `93_implementation_defined.md`). Nothing raises a fault, so there is
nothing safe or unsafe here. -/
inductive Fault where
deriving DecidableEq, Repr

/-- What the model does not accept. No step answers one of these. -/
inductive Refusal where
  /-- An instruction that has no meaning yet, by its mnemonic. Raised only by a refused arm of `exec`; no arm is
  refused now. Safe. -/
  | notModelled (mnemonic : String)
  /-- Raised by `State.configure`: the code tables break R29-R31, and a model must refuse such a triple
  (`93_implementation_defined.md` U3). Safe. -/
  | inadmissibleTables
  /-- Raised by `State.configure`: LATENCY is an integer ≥ 1 (R8). Safe. -/
  | zeroLatency
deriving DecidableEq, Repr

/-- What the host drives on the input ports in one cycle (R21). -/
structure PortIn where
  rst : Bool
  reqValid : Bool
  reqCmd : CmdWord
  reqOpa : Operand
  reqOpb : Operand
deriving DecidableEq, Repr

/-- What the unit drives on the output ports in one cycle (R21). -/
structure PortOut where
  reqReady : Bool
  rspValid : Bool
  rspStat : StatWord
  rspRes : Operand
deriving DecidableEq, Repr

/-- One request: a command word and two operand words (R70). -/
structure Request where
  cmd : CmdWord
  opa : Operand
  opb : Operand
deriving DecidableEq, Repr

/-- The machine between two rising edges of `clk`. -/
structure State where
  /-- RES (R25). -/
  res : Operand
  /-- STAT, with STAT[7:0] = CODE (R35). -/
  stat : StatWord
  /-- BUSY and what it implies: `none` is BUSY = 0; `some k` is BUSY = 1 with `k` more BUSY cycles after the present
  one (R36, R163; log entry 6). -/
  inFlight : Option Nat
  /-- The output `rsp_valid` (R21, R163). -/
  rspValid : Bool
  /-- The latch CMD (R21). -/
  cmd : CmdWord
  /-- The latch OPA (R21). -/
  opa : Operand
  /-- The latch OPB (R21). -/
  opb : Operand
  /-- GROM, HROM and SYNTAB (R26-R28, R34). -/
  rom : CodeTables
  /-- The parameter LATENCY (R8, R168; log entry 2). -/
  latency : Nat
  /-- What the host drives in each coming cycle, the next cycle first (R20, R21; log entry 4). -/
  inputs : List PortIn
  /-- The model's own: how many times the unspecified latch values of R37 have been drawn (log entry 3). -/
  draws : Nat
deriving DecidableEq, Repr

/-- The state after reset of a unit built with the given `CODE_TABLES` and `LATENCY`, and a host that presents
nothing (R37, R160). -/
def State.resetWith (tables : CodeTables) (latency : Nat) : State where
  res := 0#64
  stat := 0#8
  inFlight := none
  rspValid := false
  cmd := Config.latchCmdAtReset 0
  opa := Config.latchOpaAtReset 0
  opb := Config.latchOpbAtReset 0
  rom := tables
  latency := latency
  inputs := []
  draws := 1

/-- The machine right after reset, with the default tables of R33 and the open LATENCY (R37). -/
def State.reset : State := State.resetWith CodeTables.default Config.latency

end Sys2Proof.Machine
end

