-- ==== Sys2Proof/Machine/Ops.lean ====
section
/-! DEFINITION. The named operations on the state: ports, acceptance, BUSY, completion, errors, reset and configuration
(`10_state.md` R21, R22, R36, `60_exceptions.md` R143, `70_reset_and_hazards.md` R160-R163). -/

namespace Sys2Proof.Machine

/-- A host that presents nothing and does not reset (log entry 4). -/
def PortIn.idle : PortIn := ⟨false, false, 0#32, 0#64, 0#64⟩

/-- A host that presents the request `r`. -/
def PortIn.present (r : Request) : PortIn := ⟨false, true, r.cmd, r.opa, r.opb⟩

/-- The request on the input ports (R21). -/
def PortIn.request (inp : PortIn) : Request := ⟨inp.reqCmd, inp.reqOpa, inp.reqOpb⟩

/-- BUSY (R36). -/
def State.busy (s : State) : Bool := s.inFlight.isSome

/-- The inputs of the present cycle; a host that has said nothing more is idle (log entry 4). -/
def State.nextInput (s : State) : PortIn := s.inputs.headD PortIn.idle

/-- The present cycle's inputs are used up. -/
def State.dropInput (s : State) : State := { s with inputs := s.inputs.tail }

/-- `req_ready = NOT BUSY AND NOT rst`, in the present cycle (R21, R36, R163). -/
def State.reqReady (s : State) : Bool := !s.busy && !s.nextInput.rst

/-- `rsp_stat` equals STAT at all times (R21). -/
def State.rspStat (s : State) : StatWord := s.stat

/-- `rsp_res` equals RES at all times (R21). -/
def State.rspRes (s : State) : Operand := s.res

/-- The output ports in the present cycle (R21). -/
def State.outputs (s : State) : PortOut := ⟨s.reqReady, s.rspValid, s.rspStat, s.rspRes⟩

/-- A request is accepted in a cycle where `req_valid = 1` and `req_ready = 1` (R21). -/
def State.accepts (s : State) : Bool := s.nextInput.reqValid && s.reqReady

/-- The request accepted in the present cycle, if there is one. -/
def State.acceptedNow (s : State) : Option Request :=
  if s.accepts then some s.nextInput.request else none

/-- The latched request, as one value. -/
def State.latched (s : State) : Request := ⟨s.cmd, s.opa, s.opb⟩

/-- The request in flight: while BUSY = 1, the latched one (R36). -/
def State.pending (s : State) : Option Request :=
  if s.busy then some s.latched else none

/-- The response shown in the present cycle: STAT and RES where `rsp_valid = 1` (R21, R22). -/
def State.responseNow (s : State) : Option (StatWord × Operand) :=
  if s.rspValid then some (s.stat, s.res) else none

/-- At acceptance the latches load the request ports (R21, R57, R163). -/
def State.accept (r : Request) (s : State) : State := { s with cmd := r.cmd, opa := r.opa, opb := r.opb }

/-- The edge that ends an acceptance cycle when `LATENCY > 1`: BUSY becomes 1 for LATENCY - 1 cycles, and `rsp_valid`
returns to 0 (R163). -/
def State.startBusy (s : State) : State := { s with inFlight := some (s.latency - 2), rspValid := false }

/-- The edge that ends a BUSY cycle with `k` further BUSY cycles to come (R163). -/
def State.countDown (k : Nat) (s : State) : State := { s with inFlight := some k, rspValid := false }

/-- The edge that ends a cycle in which nothing is in flight, accepted or reset: `rsp_valid` returns to 0, and STAT and
RES keep their values (R163). -/
def State.idleCycle (s : State) : State := { s with rspValid := false }

/-- `finish(c, v)` at the edge that ends cycle t+LATENCY-1: STAT and RES take the values together, `rsp_valid` becomes 1
and BUSY becomes 0 (R13, R22, R163). -/
def State.finish (c : Status) (v : Operand) (s : State) : State :=
  { s with stat := c.code, res := v, rspValid := true, inFlight := none }

/-- `finish` with the pair an operation ends in. -/
def State.finishWith (c : Completion) (s : State) : State := s.finish c.status c.res

/-- `raise E`: the one "entry" of every error, `finish(E, 0)`. Nothing is saved, no mode changes and control goes
nowhere, so there is nothing to return from (R13, R143, R150, R151). -/
def State.raise (e : Status) (s : State) : State := s.finish e 0#64

/-- The edge that ends a cycle with `rst = 1`: every register takes its reset value, the latches an arbitrary one, and a
request in flight is abandoned. The ROMs are constants (R37, R160, R161). -/
def State.applyReset (s : State) : State :=
  { s with
    res := 0#64
    stat := 0#8
    inFlight := none
    rspValid := false
    cmd := Config.latchCmdAtReset s.draws
    opa := Config.latchOpaAtReset s.draws
    opb := Config.latchOpbAtReset s.draws
    draws := s.draws + 1 }

/-- The state after reset of a unit with these parameters, where the model accepts them: the tables satisfy R29-R31 and
LATENCY ≥ 1 (R8, `93_implementation_defined.md` U3; log entry 7). -/
def State.configure (tables : CodeTables) (latency : Nat) : Host.Outcome State Fault Refusal :=
  if tables.Admissible then
    if latency = 0 then .refused .zeroLatency else .next (State.resetWith tables latency)
  else .refused .inadmissibleTables

/-- The host presents `r` in the present cycle to a ready unit that completes it at the end of that cycle, LATENCY = 1
(log entry 5). -/
def State.presentNow (r : Request) (s : State) : State :=
  { s with inFlight := none, latency := 1, inputs := PortIn.present r :: s.inputs }

end Sys2Proof.Machine
end

