-- ==== Sys2Proof/Machine/Decoder.lean ====
section
/-! DEFINITION. The syndrome decoder and single-bit corrector: SYN, CORR, DEC, DECS (`42_decoder.md` R120-R132). -/

namespace Sys2Proof.Machine

/-- Syndrome, correctness check and error-position lookup (R123-R125): S = 0 skips the lookup with ERR = 0 and POS = 7;
a lookup miss is `none` and never position 0. -/
def locateError (t : CodeTables) (r : Codeword) : Option ErrorInfo :=
  if t.syndrome r = 0#3 then some ⟨0#3, false, 7#3⟩
  else if (t.lookup (t.syndrome r)).valid then some ⟨t.syndrome r, true, (t.lookup (t.syndrome r)).pos⟩
  else none

/-- Correction: with ERR = 1 flip exactly codeword position POS, `r XOR (1 << (6 - POS))`; else leave `r` (R127).
A VALID entry with POS = 7 is in no admissible table; there the word is a free value (log entry 8). -/
def corrected (r : Codeword) (e : ErrorInfo) : Codeword :=
  if e.err then
    if e.pos = 7#3 then Config.correctedAtNoPosition r else r ^^^ (1#7 <<< (6 - e.pos.toNat))
  else r

/-- The steps of R120 after the operand parse, with the payload each operation returns (R126): the first step that raises
ends the request. -/
def decodeWith (payload : Codeword → ErrorInfo → Codeword) (t : CodeTables) (parsed : Option Codeword) : Completion :=
  match parsed with
  | none => .error .malformedCodeword
  | some r =>
    match locateError t r with
    | none => .error .unmappedSyndrome
    | some e => .ok (decodeInfo e (payload r e))

/-- PAYLOAD of SYN: 0 (R126, R128). -/
def synPayload (_ : Codeword) (_ : ErrorInfo) : Codeword := 0#7

/-- PAYLOAD of DEC and DECS: `zext_7(DATA)` with `DATA = r'[3:0]` (R126, R127). -/
def decPayload (r : Codeword) (e : ErrorInfo) : Codeword := ((corrected r e).extractLsb' 0 4).setWidth 7

/-- What SYN ends in (R128). -/
def synResult (t : CodeTables) (opa : Operand) : Completion := decodeWith synPayload t (parseBinary opa)

/-- What CORR ends in: PAYLOAD is the corrected word (R129). -/
def corrResult (t : CodeTables) (opa : Operand) : Completion := decodeWith corrected t (parseBinary opa)

/-- What DEC ends in (R130). -/
def decResult (t : CodeTables) (opa : Operand) : Completion := decodeWith decPayload t (parseBinary opa)

/-- What DECS ends in: as DEC, with the character-form operand (R132). -/
def decsResult (t : CodeTables) (opa : Operand) : Completion := decodeWith decPayload t (parseChars opa)

/-- SYN (R128). OPB is ignored (R76). -/
def execSyn (s : State) : Host.Outcome State Fault Refusal := .next (s.finishWith (synResult s.rom s.opa))

/-- CORR (R129). OPB is ignored (R76). -/
def execCorr (s : State) : Host.Outcome State Fault Refusal := .next (s.finishWith (corrResult s.rom s.opa))

/-- DEC (R130). OPB is ignored (R76). -/
def execDec (s : State) : Host.Outcome State Fault Refusal := .next (s.finishWith (decResult s.rom s.opa))

/-- DECS (R132). OPB is ignored (R76). -/
def execDecs (s : State) : Host.Outcome State Fault Refusal := .next (s.finishWith (decsResult s.rom s.opa))

end Sys2Proof.Machine
end

