-- ==== Sys2Proof/Machine/Encoder.lean ====
section
/-! DEFINITION. The Hamming(7,4) encoder: ENC, ENCS (`41_encoder.md` R110-R113). -/

namespace Sys2Proof.Machine

/-- The shared path of ENC and ENCS: reject `v > 15`, else give the codeword of `v` in the form asked for (R110, R111). -/
def encodeWith (form : Codeword → Operand) (t : CodeTables) (v : Operand) : Completion :=
  if v.toNat > 15 then .error .outOfRange else .ok (form (t.codeword (v.extractLsb' 0 4)))

/-- What ENC ends in: `zext_64(CW)` (R112). -/
def encResult (t : CodeTables) (opa : Operand) : Completion := encodeWith (fun cw => cw.setWidth 64) t opa

/-- What ENCS ends in: the codeword rendered as a 7-character string (R113). -/
def encsResult (t : CodeTables) (opa : Operand) : Completion := encodeWith renderCodeword t opa

/-- ENC (R112). OPB is ignored (R76). -/
def execEnc (s : State) : Host.Outcome State Fault Refusal := .next (s.finishWith (encResult s.rom s.opa))

/-- ENCS (R113). OPB is ignored (R76). -/
def execEncs (s : State) : Host.Outcome State Fault Refusal := .next (s.finishWith (encsResult s.rom s.opa))

end Sys2Proof.Machine
end

