-- ==== Sys2Proof/Machine/Matmul.lean ====
section
/-! DEFINITION. GF(2) matrix multiply: MATMUL (`40_matmul.md` R100). -/

namespace Sys2Proof.Machine

/-- Element `(i, j)` of the product of A (`n` columns) and B (`p` columns): `XOR_{k=0..n-1} (A(i,k) AND B(k,j))`. -/
def productElem (a b : Operand) (n p i j : Nat) : Bool :=
  xorBelow n fun k => matrixElem a n i k && matrixElem b p k j

/-- What MATMUL ends in: DIM_MISMATCH when nA ≠ nB, checked first; otherwise the packed m×p product (R100). -/
def matmulResult (m nA nB p : Nat) (opa opb : Operand) : Completion :=
  if nA = nB then .ok (packMatrix m p (productElem opa opb nA p)) else .error .dimMismatch

/-- MATMUL (R100). -/
def execMatmul (m nA nB p : Nat) (s : State) : Host.Outcome State Fault Refusal :=
  .next (s.finishWith (matmulResult m nA nB p s.opa s.opb))

end Sys2Proof.Machine
end

