-- ==== Sys2Proof/Machine/Dispatch.lean ====
section
/-! DEFINITION. The dispatch: one arm per constructor of Instr, each one call of its meaning (`30_encoding.md` R73). -/

namespace Sys2Proof.Machine

/-- The completion edge of the latched request, decoded as `i`. -/
def exec (i : Instr) (s : State) : Host.Outcome State Fault Refusal :=
  match i with
  | .matmul m nA nB p => Sys2Proof.Machine.execMatmul m nA nB p s
  | .enc => Sys2Proof.Machine.execEnc s
  | .encs => Sys2Proof.Machine.execEncs s
  | .syn => Sys2Proof.Machine.execSyn s
  | .corr => Sys2Proof.Machine.execCorr s
  | .dec => Sys2Proof.Machine.execDec s
  | .decs => Sys2Proof.Machine.execDecs s

end Sys2Proof.Machine
end

