-- ==== Sys2Proof/Machine/Protocol.lean ====
section
/-! DEFINITION. One clock cycle of the request protocol (`70_reset_and_hazards.md` R160-R163). -/

namespace Sys2Proof.Machine

/-- The edge that ends cycle t+LATENCY-1: the latched command word is decoded and its operation completes; an illegal word
completes with ILLEGAL_OP, and its operands are not examined (R75, R142, R148, R163). -/
def complete (s : State) : Host.Outcome State Fault Refusal :=
  match decode s.cmd with
  | .instr i => exec i s
  | .illegal _ => .next (s.raise .illegalOp)

/-- The edge that ends the acceptance cycle of `r`: the latches load, and the request completes at once when LATENCY = 1,
else BUSY becomes 1 (R163). -/
def acceptCycle (r : Request) (s : State) : Host.Outcome State Fault Refusal :=
  if s.latency ≤ 1 then complete (s.accept r) else .next (s.accept r).startBusy

/-- One cycle with the inputs `inp` (R160-R163): reset comes first; a BUSY cycle accepts nothing and counts down to the
completion edge; a ready cycle accepts what is presented, or idles. -/
def cycle (inp : PortIn) (s : State) : Host.Outcome State Fault Refusal :=
  if inp.rst then .next s.applyReset
  else
    match s.inFlight with
    | some (k + 1) => .next (s.countDown k)
    | some 0 => complete s
    | none => if inp.reqValid then acceptCycle inp.request s else .next s.idleCycle

end Sys2Proof.Machine
end

