-- ==== Sys2Proof/Machine/Step.lean ====
section
/-! DEFINITION. One step of the machine: one rising edge of `clk`, with the inputs the host drives in the cycle it ends
(`70_reset_and_hazards.md` R163). -/

namespace Sys2Proof.Machine

/-- One clock cycle. -/
def step (s : State) : Host.Outcome State Fault Refusal := cycle s.nextInput s.dropInput

/-- `s` with the command word presented, operands 0, so that the very next step accepts, decodes and completes it
(log entry 5). The unit fetches nothing (R62): a program is the sequence of requests the host presents (R24). -/
def State.withFetchWord (s : State) (nbits w : Nat) : State := s.presentNow ⟨tableCommand nbits w, 0#64, 0#64⟩

end Sys2Proof.Machine
end

