-- ==== Sys2Proof/Machine/Assembler.lean ====
section
/-! DEFINITION. The assembler syntax and the pseudo-instructions: a line of text to a request (`30_encoding.md` R78, R79).
Conventions R78 leaves open are in log entry 12. -/

namespace Sys2Proof.Machine

/-- One assembler statement: the forms of R78 and the two pseudo-instructions of R79, with their values. -/
inductive AsmStmt where
  | matmul (m nA nB p : Nat) (a b : Operand)
  | enc (v : Operand)
  | encs (v : Operand)
  | syn (cw : Operand)
  | corr (cw : Operand)
  | dec (cw : Operand)
  | decs (s : List Byte)
  | raw (cmd : CmdWord) (a b : Operand)
  | encm (v : Operand)
  | synm (cw : Operand)
deriving DecidableEq, Repr

/-- The 4×7 G of the default tables as a MATMUL operand (R54, R79). -/
def packedG : Operand := packMatrix 4 7 fun i j => ((CodeTables.default.grow.toList.getD i 0#7).getLsbD (6 - j))

/-- The 3×7 H of the default tables as a MATMUL operand (R54, R79). -/
def packedH : Operand := packMatrix 3 7 fun i j => ((CodeTables.default.hrow.toList.getD i 0#7).getLsbD (6 - j))

/-- A request for an instruction, if its dimensions can be encoded: "the assembler refuses a MATMUL dimension outside
1..8" (R78). -/
def instrRequest (i : Instr) (a b : Operand) : Option Request :=
  if i.wellFormed then some ⟨encode i, a, b⟩ else none

/-- The request a statement stands for, `none` where the assembler refuses it (R78, R79). It refuses nothing the unit
itself would report: ENC 16 assembles. -/
def assemble : AsmStmt → Option Request
  | .matmul m nA nB p a b => instrRequest (.matmul m nA nB p) a b
  | .enc v => instrRequest .enc v 0#64
  | .encs v => instrRequest .encs v 0#64
  | .syn cw => instrRequest .syn cw 0#64
  | .corr cw => instrRequest .corr cw 0#64
  | .dec cw => instrRequest .dec cw 0#64
  | .decs s => if s.length ≤ 8 then instrRequest .decs (packString s) 0#64 else none
  | .raw cmd a b => some ⟨cmd, a, b⟩
  | .encm v => if v.toNat ≤ 15 then instrRequest (.matmul 1 4 4 7) v packedG else none
  | .synm cw => instrRequest (.matmul 3 7 7 1) packedH (packColumn (cw.setWidth 7))

/-- A space or a tab. -/
def isBlank (c : Char) : Bool := c == ' ' || c == '\t'

/-- Drop the blanks at both ends. -/
def trimBlanks (cs : List Char) : List Char := ((cs.dropWhile isBlank).reverse.dropWhile isBlank).reverse

/-- Drop a comment: from the first ';' that stands outside a double-quoted string (R78). -/
def dropComment : Bool → List Char → List Char
  | _, [] => []
  | inString, c :: cs =>
    if c == '"' then c :: dropComment (!inString) cs
    else if c == ';' && !inString then [] else c :: dropComment inString cs

/-- Split at every comma. -/
def splitCommas (cs : List Char) : List (List Char) :=
  cs.foldr
    (fun c acc =>
      if c == ',' then [] :: acc
      else
        match acc with
        | [] => [[c]]
        | part :: rest => (c :: part) :: rest)
    [[]]

/-- A letter in capitals: mnemonics are case-insensitive (R78). -/
def upperChar (c : Char) : Char := if 'a' ≤ c && c ≤ 'z' then Char.ofNat (c.toNat - 32) else c

/-- The digits of R78's three bases, each at the index that is its value: the first two are the binary digits, the first
ten the decimal ones, all sixteen the hexadecimal ones. -/
def digitChars : List Char := "0123456789ABCDEF".toList

/-- The value of a digit in the given base, a letter in either case (log entry 12). -/
def digitValue (base : Nat) (c : Char) : Option Nat := (digitChars.take base).idxOf? (upperChar c)

/-- The value of a nonempty digit string. -/
def digitsValue (base : Nat) (cs : List Char) : Option Nat :=
  match cs with
  | [] => none
  | _ :: _ => cs.foldl (fun acc c => acc.bind fun n => (digitValue base c).map fun d => n * base + d) (some 0)

/-- A numeric literal: decimal, `0x` hexadecimal or `0b` binary, unsigned (R78). -/
def numberLiteral (cs : List Char) : Option Nat :=
  match cs with
  | '0' :: 'x' :: ds => digitsValue 16 ds
  | '0' :: 'b' :: ds => digitsValue 2 ds
  | ds => digitsValue 10 ds

/-- A literal that fits its field of `w` bits: the assembler refuses a wider one (R78). -/
def fieldLiteral (w : Nat) (cs : List Char) : Option (BitVec w) :=
  (numberLiteral cs).bind fun n => if n < 2 ^ w then some (BitVec.ofNat w n) else none

/-- A codeword literal: a number, or a 7-character bit string in single quotes, read as its numeral (R78, R11). -/
def codewordLiteral (cs : List Char) : Option Operand :=
  match cs with
  | '\'' :: rest =>
    if rest.length = 8 && rest.getLast? == some '\'' then
      (digitsValue 2 rest.dropLast).map (BitVec.ofNat 64)
    else none
  | _ => fieldLiteral 64 cs

/-- A double-quoted string as bytes, any character allowed (R78). -/
def stringLiteral (cs : List Char) : Option (List Byte) :=
  match cs with
  | '"' :: rest =>
    if rest.getLast? == some '"' && rest.dropLast.all (fun c => c != '"' && decide (c.toNat < 256)) then
      some (rest.dropLast.map fun c => BitVec.ofNat 8 c.toNat)
    else none
  | _ => none

/-- Read a statement from its mnemonic, in capitals, and its operand text. -/
def parseOperands (mnemonic : List Char) (text : List Char) : Option AsmStmt :=
  let args := (splitCommas text).map trimBlanks
  match mnemonic with
  | ['M', 'A', 'T', 'M', 'U', 'L'] =>
    match args with
    | [m, nA, nB, p, a, b] =>
      match numberLiteral m, numberLiteral nA, numberLiteral nB, numberLiteral p, fieldLiteral 64 a,
          fieldLiteral 64 b with
      | some m, some nA, some nB, some p, some a, some b => some (.matmul m nA nB p a b)
      | _, _, _, _, _, _ => none
    | _ => none
  | ['E', 'N', 'C'] => (fieldLiteral 64 (trimBlanks text)).map .enc
  | ['E', 'N', 'C', 'S'] => (fieldLiteral 64 (trimBlanks text)).map .encs
  | ['S', 'Y', 'N'] => (codewordLiteral (trimBlanks text)).map .syn
  | ['C', 'O', 'R', 'R'] => (codewordLiteral (trimBlanks text)).map .corr
  | ['D', 'E', 'C'] => (codewordLiteral (trimBlanks text)).map .dec
  | ['D', 'E', 'C', 'S'] => (stringLiteral (trimBlanks text)).map .decs
  | ['R', 'A', 'W'] =>
    match args with
    | [cmd, a, b] =>
      match fieldLiteral 32 cmd, fieldLiteral 64 a, fieldLiteral 64 b with
      | some cmd, some a, some b => some (.raw cmd a b)
      | _, _, _ => none
    | _ => none
  | ['E', 'N', 'C', 'M'] => (fieldLiteral 64 (trimBlanks text)).map .encm
  | ['S', 'Y', 'N', 'M'] => (codewordLiteral (trimBlanks text)).map .synm
  | _ => none

/-- What a line of assembler text gives. -/
inductive AsmLine where
  /-- A line with nothing but blanks and a comment. -/
  | blank
  /-- One request. -/
  | request (r : Request)
  /-- The assembler refuses the line. -/
  | rejected
deriving DecidableEq, Repr

/-- One line of assembler text: at most one request, a comment after ';', mnemonics case-insensitive (R78). -/
def assembleLine (line : List Char) : AsmLine :=
  match trimBlanks (dropComment false line) with
  | [] => .blank
  | cs =>
    match (parseOperands ((cs.takeWhile fun c => !isBlank c).map upperChar) (cs.dropWhile fun c => !isBlank c)).bind
        assemble with
    | some r => .request r
    | none => .rejected

end Sys2Proof.Machine
end

