-- ==== Sys2Proof/Machine/Transaction.lean ====
section
/-! DEFINITION. The transaction level: the pure function `Exec` of `10_state.md` R22, and what a run accepts and answers,
as `70_reset_and_hazards.md` R164 compares them. The step uses nothing of this file. -/

namespace Sys2Proof.Machine

/-- What an operation ends in, as a function of the tables and the operand words alone (R22, R76). -/
def perform (t : CodeTables) (i : Instr) (opa opb : Operand) : Completion :=
  match i with
  | .matmul m nA nB p => matmulResult m nA nB p opa opb
  | .enc => encResult t opa
  | .encs => encsResult t opa
  | .syn => synResult t opa
  | .corr => corrResult t opa
  | .dec => decResult t opa
  | .decs => decsResult t opa

/-- `Exec(CODE_TABLES, CMD, OPA, OPB)` (R22). -/
def execRequest (t : CodeTables) (r : Request) : Completion :=
  match decode r.cmd with
  | .instr i => perform t i r.opa r.opb
  | .illegal _ => .error .illegalOp

/-- The pair a completion shows on the response port. -/
def Completion.response (c : Completion) : StatWord × Operand := (c.status.code, c.res)

/-- The machine after `n` cycles. -/
def runCycles (n : Nat) (s : State) : Host.Outcome State Fault Refusal := Host.Core.run Sys2Proof.core n s

/-- The requests accepted in the next `n` cycles, in order (R58). -/
def acceptedIn : Nat → State → List Request
  | 0, _ => []
  | n + 1, s =>
    s.acceptedNow.toList ++
      match step s with
      | .next t => acceptedIn n t
      | .fault _ => []
      | .refused _ => []

/-- The responses shown in the `n` cycles after the present one, in order: (STAT, RES) at each completion cycle. -/
def responsesIn : Nat → State → List (StatWord × Operand)
  | 0, _ => []
  | n + 1, s =>
    match step s with
    | .next t => t.responseNow.toList ++ responsesIn n t
    | .fault _ => []
    | .refused _ => []

/-- What the host drives `n` cycles from now. -/
def State.inputAt (s : State) (n : Nat) : PortIn := s.inputs.getD n PortIn.idle

/-- The host does not reset the unit in the next `n` cycles. -/
def State.NoReset (s : State) (n : Nat) : Prop := ∀ k, k < n → (s.inputAt k).rst = false

/-- One atomic step per request, `(STAT, RES) <- Exec(...)` (R22, R164). -/
def transact (r : Request) (s : State) : State := (s.accept r).finishWith (execRequest s.rom r)

/-- Several requests, one after the other (R24, R58). -/
def transactAll : List Request → State → State
  | [], s => s
  | r :: rs, s => transactAll rs (transact r s)

end Sys2Proof.Machine
end

