-- ==== Sys2Proof/Safety.lean ====
section
/-! DEFINITION. What a legal state is, in the terms the statements use (`00_scope.md` R8, `10_state.md` R29-R37,
`60_exceptions.md` R141, R143, `70_reset_and_hazards.md` R163). -/

namespace Sys2Proof.Machine

/-- STAT holds one of the codes 0..6: "7-255 never produced" (R35, R141). -/
def State.StatLegal (s : State) : Prop := s.stat.toNat ≤ 6

/-- RES is 0 whenever STAT is not OK: an error records no part of a result, and reset clears it (R141, R143). -/
def State.ErrorResultZero (s : State) : Prop := s.stat ≠ Status.code .ok → s.res = 0#64

/-- BUSY lasts at most LATENCY - 1 cycles, so it is never 1 when LATENCY = 1 (R36, R163). -/
def State.BusyBounded (s : State) : Prop := ∀ k, s.inFlight = some k → k + 2 ≤ s.latency

/-- In a completion cycle BUSY = 0 and a request has completed: STAT is not NONE (R22, R141). -/
def State.PulseLegal (s : State) : Prop :=
  s.rspValid = true → s.inFlight = none ∧ s.stat ≠ Status.code .none

/-- The reserved command words of R75: a reserved OP, a MATMUL word with `CMD[31:16]` not 0, or another operation's word
with `CMD[31:4]` not 0. -/
def ReservedWord (cmd : CmdWord) : Prop :=
  (cmd.extractLsb' 0 4 = 0#4 ∨ 8 ≤ (cmd.extractLsb' 0 4).toNat) ∨
  (cmd.extractLsb' 0 4 = 1#4 ∧ cmd.extractLsb' 16 16 ≠ 0#16) ∨
  (2 ≤ (cmd.extractLsb' 0 4).toNat ∧ (cmd.extractLsb' 0 4).toNat ≤ 7 ∧ cmd.extractLsb' 4 28 ≠ 0#28)

/-- `res` has the decode-information layout with these fields, and its other bits are 0 (R126). -/
def DecodeLayout (res : Operand) (payload : Codeword) (err : Bool) (synd : Syndrome) (pos : BitVec 3) : Prop :=
  payloadField res = payload ∧ errField res = err ∧ syndField res = synd ∧ res.getLsbD 11 = false ∧
  posField res = pos ∧ res.extractLsb' 15 49 = 0#49

/-- `x` is the 7-character string of the bits of `r`: character `k` is '0' or '1' as position `k` is, and byte 7 is 0x00
(R55, R122). -/
def SpellsCodeword (x : Operand) (r : Codeword) : Prop :=
  (∀ k, k < 7 → byteOf x k = if r.getLsbD (6 - k) then 0x31#8 else 0x30#8) ∧ byteOf x 7 = 0x00#8

/-- The word with exactly codeword position `p` set (R11). -/
def positionMask (p : Nat) : Codeword := 1#7 <<< (6 - p)

/-- The states the spec allows, whatever its admissible parameters are. -/
structure State.Legal (s : State) : Prop where
  tables : s.rom.Admissible
  latencyPos : 1 ≤ s.latency
  statLegal : s.StatLegal
  errorResult : s.ErrorResultZero
  busyBounded : s.BusyBounded
  pulse : s.PulseLegal
  neverUnmapped : s.stat ≠ Status.code .unmappedSyndrome

end Sys2Proof.Machine
end

