-- ==== Sys2Proof/Certificates/Slice0/Obligations.lean ====
section
/-! DEFINITION. The statements for the provers, file by file of spec/. -/

open Sys2Proof Sys2Proof.Machine

/-! ### Command encoding (`30_encoding.md`) -/

/-- No bit of an encoding is dropped: every well-formed instruction is what its command word decodes to (R74, R77, R78). -/
def Obligations.DecodeOfEncodeIsTheInstruction : Prop :=
  ∀ i : Instr, i.wellFormed = true → decode (encode i) = .instr i

/-- Each legal command word has one meaning, and it is the command word of that meaning (R74, R77). -/
def Obligations.EncodeOfDecodeIsTheWord : Prop :=
  ∀ (cmd : CmdWord) (i : Instr), decode cmd = .instr i → i.wellFormed = true ∧ encode i = cmd

/-- R74: the table of masks and matches, no two rows of which overlap; an operation is selected exactly by its row, and the
letters p, b, a, m of MATMUL's pattern are its dimension fields. -/
def Obligations.PatternRowsSelectOperations : Prop :=
  (∀ m nA nB p, patternRow (.matmul m nA nB p) = ⟨0xFFFF000F#32, 0x00000001#32⟩) ∧
  [Instr.enc, .encs, .syn, .corr, .dec, .decs].map patternRow =
    [⟨0xFFFFFFFF#32, 0x00000002#32⟩, ⟨0xFFFFFFFF#32, 0x00000003#32⟩, ⟨0xFFFFFFFF#32, 0x00000004#32⟩,
     ⟨0xFFFFFFFF#32, 0x00000005#32⟩, ⟨0xFFFFFFFF#32, 0x00000006#32⟩, ⟨0xFFFFFFFF#32, 0x00000007#32⟩] ∧
  (∀ row, row ∈ patternTable ↔ ∃ i, row = patternRow i) ∧
  patternTable.Pairwise (fun a b => ∀ cmd : CmdWord, ¬(cmd &&& a.mask = a.pattern ∧ cmd &&& b.mask = b.pattern)) ∧
  (∀ (cmd : CmdWord) (i : Instr), decode cmd = .instr i →
    cmd &&& (patternRow i).mask = (patternRow i).pattern) ∧
  (∀ (cmd : CmdWord), ∀ row ∈ patternTable, cmd &&& row.mask = row.pattern →
    ∃ i, decode cmd = .instr i ∧ patternRow i = row) ∧
  (∀ m a b p : BitVec 3, decode (0#16 ++ p ++ b ++ a ++ m ++ 0b0001#4) =
    .instr (.matmul (m.toNat + 1) (a.toNat + 1) (b.toNat + 1) (p.toNat + 1)))

/-- R75 and R142: the illegal words are exactly the reserved ones, and a request with one completes with ILLEGAL_OP and
RES = 0 whatever its operands are. -/
def Obligations.ReservedWordsCompleteWithIllegalOp : Prop :=
  ∀ cmd : CmdWord,
    ((∀ row ∈ patternTable, cmd &&& row.mask ≠ row.pattern) ↔ ReservedWord cmd) ∧
    ((∃ why, decode cmd = .illegal why) ↔ ReservedWord cmd) ∧
    (ReservedWord cmd → ∀ s : State, s.cmd = cmd → complete s = .next (s.finish .illegalOp 0#64))

/-- R71: each dimension field is unsigned and holds its dimension minus one, so a dimension is 1..8. -/
def Obligations.DimensionFieldsHoldDimensionMinusOne : Prop :=
  ∀ (cmd : CmdWord) (m nA nB p : Nat), decode cmd = .instr (.matmul m nA nB p) →
    m = (cmd.extractLsb' 4 3).toNat + 1 ∧ nA = (cmd.extractLsb' 7 3).toNat + 1 ∧
    nB = (cmd.extractLsb' 10 3).toNat + 1 ∧ p = (cmd.extractLsb' 13 3).toNat + 1 ∧
    (1 ≤ m ∧ m ≤ 8) ∧ (1 ≤ nA ∧ nA ≤ 8) ∧ (1 ≤ nB ∧ nB ≤ 8) ∧ (1 ≤ p ∧ p ≤ 8)

/-- R80: the command words of the spec's examples, decoded and encoded. -/
def Obligations.ExampleWordsDecode : Prop :=
  ∀ x ∈ [((1, 4, 4, 7), 0x0000CD81#32), ((3, 7, 7, 1), 0x00001B21#32), ((3, 7, 7, 4), 0x00007B21#32),
         ((8, 8, 8, 8), 0x0000FFF1#32), ((1, 1, 1, 1), 0x00000001#32), ((2, 3, 3, 2), 0x00002911#32),
         ((8, 7, 7, 8), 0x0000FB71#32), ((1, 4, 3, 7), 0x0000C981#32)],
    decode x.2 = .instr (.matmul x.1.1 x.1.2.1 x.1.2.2.1 x.1.2.2.2) ∧
    encode (.matmul x.1.1 x.1.2.1 x.1.2.2.1 x.1.2.2.2) = x.2

/-- R73, R74: the words of the six operations without fields, written out bit by bit. -/
def Obligations.PlainOperationWordsDecode : Prop :=
  decode 0b00000000000000000000000000000010#32 = .instr .enc ∧
  decode 0b00000000000000000000000000000011#32 = .instr .encs ∧
  decode 0b00000000000000000000000000000100#32 = .instr .syn ∧
  decode 0b00000000000000000000000000000101#32 = .instr .corr ∧
  decode 0b00000000000000000000000000000110#32 = .instr .dec ∧
  decode 0b00000000000000000000000000000111#32 = .instr .decs

/-- R78: the assembler gives a MATMUL its command word and operands exactly when all four dimensions are 1..8, and what it
gives decodes to that MATMUL; the other forms always give their word, with OPB = 0; DECS takes strings of at most 8
characters, whatever they are, and byte k of its OPA is character k, or 0x00 past the end (R55); RAW gives any word. -/
def Obligations.AssemblerGivesTheRequest : Prop :=
  (∀ (m nA nB p : Nat) (a b : Operand) (r : Request), assemble (.matmul m nA nB p a b) = some r →
    decode r.cmd = .instr (.matmul m nA nB p) ∧ r.opa = a ∧ r.opb = b) ∧
  (∀ (m nA nB p : Nat) (a b : Operand), assemble (.matmul m nA nB p a b) = none ↔
    ¬((1 ≤ m ∧ m ≤ 8) ∧ (1 ≤ nA ∧ nA ≤ 8) ∧ (1 ≤ nB ∧ nB ≤ 8) ∧ (1 ≤ p ∧ p ≤ 8))) ∧
  (∀ v : Operand, assemble (.enc v) = some ⟨0x00000002#32, v, 0#64⟩ ∧ assemble (.encs v) = some ⟨0x00000003#32, v, 0#64⟩ ∧
    assemble (.syn v) = some ⟨0x00000004#32, v, 0#64⟩ ∧ assemble (.corr v) = some ⟨0x00000005#32, v, 0#64⟩ ∧
    assemble (.dec v) = some ⟨0x00000006#32, v, 0#64⟩) ∧
  (∀ str : List Byte, str.length ≤ 8 → ∃ opa : Operand, assemble (.decs str) = some ⟨0x00000007#32, opa, 0#64⟩ ∧
    (∀ (k : Nat) (hk : k < str.length), byteOf opa k = str[k]) ∧
    ∀ k, str.length ≤ k → k < 8 → byteOf opa k = 0x00#8) ∧
  (∀ str : List Byte, 8 < str.length → assemble (.decs str) = none) ∧
  (∀ (cmd : CmdWord) (a b : Operand), assemble (.raw cmd a b) = some ⟨cmd, a, b⟩)

/-- R79: ENCM v is the MATMUL 1,4,4,7 of v and G, refused above 15, and gives the answer of ENC v; SYNM cw is the
MATMUL 3,7,7,1 of H and the column of cw, and gives the syndrome as a column. Default tables. -/
def Obligations.PseudoInstructionsExpandToMatmul : Prop :=
  (∀ v : Operand, v.toNat > 15 → assemble (.encm v) = none) ∧
  (∀ v : Operand, v.toNat ≤ 15 →
    assemble (.encm v) = some ⟨0x0000CD81#32, v, 0x0000000071325468#64⟩ ∧
    ∀ b : Operand, execRequest CodeTables.default ⟨0x0000CD81#32, v, 0x0000000071325468#64⟩ =
      execRequest CodeTables.default ⟨0x00000002#32, v, b⟩) ∧
  (∀ cw : Operand, cw.toNat ≤ 0x7F → ∃ col : Operand,
    (∀ q, col.getLsbD q = (decide (q < 56) && decide (q % 8 = 0) && cw.getLsbD (6 - q / 8))) ∧
    assemble (.synm cw) = some ⟨0x00001B21#32, 0x0000000000172B4D#64, col⟩ ∧
    ∃ res : Operand, execRequest CodeTables.default ⟨0x00001B21#32, 0x0000000000172B4D#64, col⟩ = ⟨.ok, res⟩ ∧
      ∀ q, res.getLsbD q =
        ((decide (q = 0) && (CodeTables.default.syndrome (cw.setWidth 7)).getLsbD 2) ||
         (decide (q = 8) && (CodeTables.default.syndrome (cw.setWidth 7)).getLsbD 1) ||
         (decide (q = 16) && (CodeTables.default.syndrome (cw.setWidth 7)).getLsbD 0)))

/-! ### Operand packing (`20_memory.md`) -/

/-- R53: element (i,j) of a packed r×c matrix is bit 8i + (c-1-j), it is read back from there, byte i holds row i as a
numeral, and every other bit is 0. -/
def Obligations.PackedMatrixHoldsItsElements : Prop :=
  ∀ (r c : Nat) (elem : Nat → Nat → Bool), 1 ≤ r → r ≤ 8 → 1 ≤ c → c ≤ 8 →
    (∀ i j, i < r → j < c → (packMatrix r c elem).getLsbD (8 * i + (c - 1 - j)) = elem i j ∧
      matrixElem (packMatrix r c elem) c i j = elem i j ∧
      (byteOf (packMatrix r c elem) i).getLsbD (c - 1 - j) = elem i j) ∧
    (∀ b, r ≤ b / 8 ∨ c ≤ b % 8 → (packMatrix r c elem).getLsbD b = false) ∧
    (∀ (x y : Operand), (∀ i q, i < r → q < c → x.getLsbD (8 * i + q) = y.getLsbD (8 * i + q)) →
      ∀ i j, i < r → j < c → matrixElem x c i j = matrixElem y c i j)

/-- R55, R122: the length of a character operand is the index of its first 0x00 byte, or 8; a character operand is accepted
exactly when it spells seven bits, and it is then read as those bits. -/
def Obligations.CharacterOperandsSpellCodewords : Prop :=
  (∀ x : Operand, stringLength x ≤ 8 ∧ (∀ k, k < stringLength x → byteOf x k ≠ 0x00#8) ∧
    (stringLength x < 8 → byteOf x (stringLength x) = 0x00#8)) ∧
  (∀ (x : Operand) (r : Codeword), parseChars x = some r ↔ SpellsCodeword x r)

/-! ### GF(2) matrix multiply (`40_matmul.md`) -/

/-- R100: MATMUL answers a next state. With nA = nB it is `finish(OK, C)`, where bit 8i + (p-1-j) of C is the XOR over k of
A(i,k) AND B(k,j) and every bit outside the m×p region is 0; with nA ≠ nB it is `finish(DIM_MISMATCH, 0)`. -/
def Obligations.MatmulWritesTheProduct : Prop :=
  ∀ (s : State) (m nA nB p : Nat), dimOk m = true → dimOk nA = true → dimOk nB = true → dimOk p = true →
    (nA ≠ nB → exec (.matmul m nA nB p) s = .next (s.finish .dimMismatch 0#64)) ∧
    (nA = nB → ∃ c : Operand, exec (.matmul m nA nB p) s = .next (s.finish .ok c) ∧
      (∀ i j, i < m → j < p → c.getLsbD (8 * i + (p - 1 - j)) =
        xorBelow nA fun k => s.opa.getLsbD (8 * i + (nA - 1 - k)) && s.opb.getLsbD (8 * k + (p - 1 - j))) ∧
      (∀ b, m ≤ b / 8 ∨ p ≤ b % 8 → c.getLsbD b = false))

/-- R104 and R144: DIM_MISMATCH is raised by MATMUL only, exactly when nA ≠ nB, for every OPA and OPB, with RES = 0; a
matched MATMUL completes with OK, so MATMUL raises no other status. -/
def Obligations.DimMismatchIsMatmulWithUnequalInnerDimensions : Prop :=
  ∀ (i : Instr) (s t : State), exec i s = .next t →
    (t.stat = 2#8 ↔ ∃ m nA nB p, i = .matmul m nA nB p ∧ nA ≠ nB) ∧
    (t.stat = 2#8 → t.res = 0#64) ∧
    (∀ m nA nB p, i = .matmul m nA nB p → nA = nB → t.stat = 1#8)

/-- R101: each bit of a product is the parity of the bitwise AND of A's row numeral and B's column. -/
def Obligations.ProductElementIsParityOfRowAndColumn : Prop :=
  ∀ (s : State) (m n p : Nat), dimOk m = true → dimOk n = true → dimOk p = true → ∃ c : Operand,
    exec (.matmul m n n p) s = .next (s.finish .ok c) ∧
    ∀ i j, i < m → j < p → c.getLsbD (8 * i + (p - 1 - j)) =
      parity ((byteOf s.opa i).setWidth n &&& packBits n fun q => matrixElem s.opb p (n - 1 - q) j)

/-- R102: output bit 8i + (p-1-j) depends only on byte i of OPA and on bit p-1-j of bytes 0..n-1 of OPB, so the rows of C
are independent of each other; each output row is the XOR of the rows of B that A's row selects. -/
def Obligations.ProductRowIsXorOfSelectedRows : Prop :=
  ∀ (s : State) (m n p i : Nat), dimOk m = true → dimOk n = true → dimOk p = true → i < m → ∃ c : Operand,
    exec (.matmul m n n p) s = .next (s.finish .ok c) ∧
    (byteOf c i).setWidth p =
      (List.range n).foldl
        (fun acc k => if matrixElem s.opa n i k then acc ^^^ (byteOf s.opb k).setWidth p else acc) 0#p ∧
    ∀ (u : State) (j : Nat), j < p → byteOf u.opa i = byteOf s.opa i →
      (∀ k, k < n → (byteOf u.opb k).getLsbD (p - 1 - j) = (byteOf s.opb k).getLsbD (p - 1 - j)) →
      ∃ d : Operand, exec (.matmul m n n p) u = .next (u.finish .ok d) ∧
        d.getLsbD (8 * i + (p - 1 - j)) = c.getLsbD (8 * i + (p - 1 - j))

/-- R103: two MATMUL requests that agree on the m×nA region of OPA and the nB×p region of OPB complete with the same STAT
and RES, and the result bits outside the m×p region are 0. -/
def Obligations.MatmulIgnoresUnusedBits : Prop :=
  ∀ (s t t' : State) (m nA nB p : Nat) (a a' b b' : Operand), dimOk m = true → dimOk nA = true → dimOk nB = true →
    dimOk p = true →
    (∀ i q, i < m → q < nA → a.getLsbD (8 * i + q) = a'.getLsbD (8 * i + q)) →
    (∀ k q, k < nB → q < p → b.getLsbD (8 * k + q) = b'.getLsbD (8 * k + q)) →
    exec (.matmul m nA nB p) { s with opa := a, opb := b } = .next t →
    exec (.matmul m nA nB p) { s with opa := a', opb := b' } = .next t' →
    t.stat = t'.stat ∧ t.res = t'.res ∧ ∀ q, m ≤ q / 8 ∨ p ≤ q % 8 → t.res.getLsbD q = false

/-- R105: multiplying by the identity returns B with the ignored bits cleared, a product with a zero operand is zero, the
8×8 identity is `0x0102040810204080`, and H · G^T = 0 with the default tables, packed as the spec packs them. -/
def Obligations.MatmulIdentities : Prop :=
  (∀ (s : State) (n p : Nat), dimOk n = true → dimOk p = true →
    (∀ q, s.opa.getLsbD q = true ↔ ∃ i, i < n ∧ q = 8 * i + (n - 1 - i)) →
    ∃ c : Operand, exec (.matmul n n n p) s = .next (s.finish .ok c) ∧
      ∀ q, c.getLsbD q = (decide (q / 8 < n) && decide (q % 8 < p) && s.opb.getLsbD q)) ∧
  (∀ ident : Operand, (∀ q, ident.getLsbD q = true ↔ ∃ i, i < 8 ∧ q = 8 * i + (8 - 1 - i)) →
    ident = 0x0102040810204080#64) ∧
  (∀ (s : State) (m n p : Nat), dimOk m = true → dimOk n = true → dimOk p = true → s.opa = 0#64 ∨ s.opb = 0#64 →
    exec (.matmul m n n p) s = .next (s.finish .ok 0#64)) ∧
  packMatrix 3 7 (fun i j => (CodeTables.default.hrow.toList.getD i 0#7).getLsbD (6 - j)) = 0x172B4D#64 ∧
  packMatrix 7 4 (fun i j => (CodeTables.default.grow.toList.getD j 0#7).getLsbD (6 - i)) = 0x0001020408070B0D#64 ∧
  ∀ s : State, s.opa = 0x172B4D#64 → s.opb = 0x0001020408070B0D#64 →
    exec (.matmul 3 7 7 4) s = .next (s.finish .ok 0#64)

/-! ### Hamming(7,4) encoder (`41_encoder.md`) -/

/-- R111, R112: for a value of at most 15, ENC is `finish(OK, zext_64(CW))`, where CW is the XOR of the rows of G that the
bits of the value select, which is the data row times G. -/
def Obligations.EncWritesTheCodeword : Prop :=
  ∀ s : State, s.opa.toNat ≤ 15 → ∃ cw : Codeword,
    exec .enc s = .next (s.finish .ok (cw.setWidth 64)) ∧
    cw = (if s.opa.getLsbD 3 then s.rom.grow[0] else 0#7) ^^^ (if s.opa.getLsbD 2 then s.rom.grow[1] else 0#7) ^^^
      (if s.opa.getLsbD 1 then s.rom.grow[2] else 0#7) ^^^ (if s.opa.getLsbD 0 then s.rom.grow[3] else 0#7) ∧
    ∀ j, j < 7 → cw.getLsbD (6 - j) =
      xorBelow 4 fun k => s.opa.getLsbD (3 - k) && (s.rom.grow.toList.getD k 0#7).getLsbD (6 - j)

/-- R113: for a value of at most 15, ENCS is `finish(OK, R)`, where bytes 0..6 of R are the characters of the codeword and
byte 7 is 0x00. -/
def Obligations.EncsWritesTheCharacters : Prop :=
  ∀ s : State, s.opa.toNat ≤ 15 → ∃ v : Operand,
    exec .encs s = .next (s.finish .ok v) ∧ SpellsCodeword v (s.rom.codeword (s.opa.setWidth 4))

/-- R145: OUT_OF_RANGE is raised by ENC and ENCS only, when OPA > 15; RES is then 0. -/
def Obligations.OutOfRangeIsEncoderAboveFifteen : Prop :=
  ∀ (i : Instr) (s t : State), exec i s = .next t →
    (t.stat = 3#8 ↔ (i = .enc ∨ i = .encs) ∧ s.opa.toNat > 15) ∧ (t.stat = 3#8 → t.res = 0#64)

/-- R114: the codewords and ENCS results of all sixteen data values under the default tables. -/
def Obligations.DefaultCodewordTable : Prop :=
  ∀ row ∈ [(0#64, 0x00#64, 0x0030303030303030#64), (1#64, 0x71#64, 0x0031303030313131#64), (2#64, 0x32#64, 0x0030313030313130#64),
            (3#64, 0x43#64, 0x0031313030303031#64), (4#64, 0x54#64, 0x0030303130313031#64), (5#64, 0x25#64, 0x0031303130303130#64),
            (6#64, 0x66#64, 0x0030313130303131#64), (7#64, 0x17#64, 0x0031313130313030#64), (8#64, 0x68#64, 0x0030303031303131#64),
            (9#64, 0x19#64, 0x0031303031313030#64), (10#64, 0x5A#64, 0x0030313031313031#64), (11#64, 0x2B#64, 0x0031313031303130#64),
            (12#64, 0x3C#64, 0x0030303131313130#64), (13#64, 0x4D#64, 0x0031303131303031#64), (14#64, 0x0E#64, 0x0030313131303030#64),
            (15#64, 0x7F#64, 0x0031313131313131#64)],
    ∀ b : Operand, execRequest CodeTables.default ⟨0x00000002#32, row.1, b⟩ = ⟨.ok, row.2.1⟩ ∧
      execRequest CodeTables.default ⟨0x00000003#32, row.1, b⟩ = ⟨.ok, row.2.2⟩

/-- R115: under every admissible triple the low nibble of a codeword is the data value, and its parity bits are the XOR of
the selected rows' parity bits. -/
def Obligations.CodewordIsSystematic : Prop :=
  ∀ (t : CodeTables) (v : Nibble), t.Admissible →
    (t.codeword v).extractLsb' 0 4 = v ∧
    (t.codeword v).extractLsb' 4 3 =
      (if v.getLsbD 3 then t.grow[0].extractLsb' 4 3 else 0#3) ^^^ (if v.getLsbD 2 then t.grow[1].extractLsb' 4 3 else 0#3) ^^^
      (if v.getLsbD 1 then t.grow[2].extractLsb' 4 3 else 0#3) ^^^ (if v.getLsbD 0 then t.grow[3].extractLsb' 4 3 else 0#3)

/-- R116: every encoder output is a valid codeword: its syndrome is 0, under every admissible triple. -/
def Obligations.EncoderOutputHasZeroSyndrome : Prop :=
  ∀ (t : CodeTables) (v : Nibble), t.Admissible → t.syndrome (t.codeword v) = 0#3

/-! ### Syndrome decoder and corrector (`42_decoder.md`) -/

/-- R123: character i of the syndrome, bit 2-i, is row i of H times the received column. -/
def Obligations.SyndromeIsParityCheckProduct : Prop :=
  ∀ (t : CodeTables) (r : Codeword) (i : Nat), i < 3 →
    (t.syndrome r).getLsbD (2 - i) =
      (xorBelow 7 fun j => (t.hrow.toList.getD i 0#7).getLsbD (6 - j) && r.getLsbD (6 - j)) ∧
    (t.syndrome r).getLsbD (2 - i) = parity (t.hrow.toList.getD i 0#7 &&& r)

/-- R128: SYN of a 7-bit word whose syndrome is 0 or has a SYNTAB entry is `finish(OK, RES)` with PAYLOAD 0, ERR, S and POS
in the layout of R126. -/
def Obligations.SynReportsSyndromeAndPosition : Prop :=
  ∀ (s : State) (r : Codeword), s.opa = r.setWidth 64 →
    (s.rom.syndrome r = 0#3 ∨ (s.rom.lookup (s.rom.syndrome r)).valid = true) →
    ∃ v : Operand, exec .syn s = .next (s.finish .ok v) ∧
      DecodeLayout v 0#7 (decide (s.rom.syndrome r ≠ 0#3)) (s.rom.syndrome r)
        (if s.rom.syndrome r = 0#3 then 7#3 else (s.rom.lookup (s.rom.syndrome r)).pos)

/-- R127, R129: CORR of a 7-bit word whose syndrome is 0 or has a SYNTAB entry is `finish(OK, RES)` in the layout of R126;
its PAYLOAD is the word itself when S = 0, and otherwise the word with exactly codeword position POS flipped. For an
entry with POS = 7, which no admissible triple holds, the payload is open (log entry 8). -/
def Obligations.CorrFlipsThePositionFound : Prop :=
  ∀ (s : State) (r : Codeword), s.opa = r.setWidth 64 →
    (s.rom.syndrome r = 0#3 ∨ (s.rom.lookup (s.rom.syndrome r)).valid = true) →
    ∃ (v : Operand) (w : Codeword), exec .corr s = .next (s.finish .ok v) ∧
      DecodeLayout v w (decide (s.rom.syndrome r ≠ 0#3)) (s.rom.syndrome r)
        (if s.rom.syndrome r = 0#3 then 7#3 else (s.rom.lookup (s.rom.syndrome r)).pos) ∧
      (s.rom.syndrome r = 0#3 → w = r) ∧
      (s.rom.syndrome r ≠ 0#3 → (s.rom.lookup (s.rom.syndrome r)).pos ≠ 7#3 → ∀ q, q < 7 →
        w.getLsbD (6 - q) = (r.getLsbD (6 - q) ^^ decide (q = (s.rom.lookup (s.rom.syndrome r)).pos.toNat)))

/-- R127, R130, R132: DEC of a 7-bit word, and DECS of the string that spells it, are `finish(OK, RES)` with the same RES, in
the layout of R126, when its syndrome is 0 or has a SYNTAB entry; PAYLOAD is DATA, positions 3..6 of the word, with position
POS flipped when S is not 0. For an entry with POS = 7 the data are open (log entry 8). -/
def Obligations.DecAndDecsGiveTheNibble : Prop :=
  ∀ (s u : State) (r : Codeword), s.opa = r.setWidth 64 → SpellsCodeword u.opa r → u.rom = s.rom →
    (s.rom.syndrome r = 0#3 ∨ (s.rom.lookup (s.rom.syndrome r)).valid = true) →
    ∃ (v : Operand) (data : Nibble), exec .dec s = .next (s.finish .ok v) ∧ exec .decs u = .next (u.finish .ok v) ∧
      DecodeLayout v (data.setWidth 7) (decide (s.rom.syndrome r ≠ 0#3)) (s.rom.syndrome r)
        (if s.rom.syndrome r = 0#3 then 7#3 else (s.rom.lookup (s.rom.syndrome r)).pos) ∧
      (s.rom.syndrome r = 0#3 → data = r.setWidth 4) ∧
      (s.rom.syndrome r ≠ 0#3 → (s.rom.lookup (s.rom.syndrome r)).pos ≠ 7#3 → ∀ q, 3 ≤ q → q < 7 →
        data.getLsbD (6 - q) = (r.getLsbD (6 - q) ^^ decide (q = (s.rom.lookup (s.rom.syndrome r)).pos.toNat)))

/-- R146: MALFORMED_CODEWORD is raised by SYN, CORR and DEC exactly when OPA[63:7] is not 0, and by DECS exactly when the
length is not 7 or a character is neither '0' nor '1'; by nothing else; RES is then 0. -/
def Obligations.MalformedIsABadCodewordOperand : Prop :=
  ∀ (i : Instr) (s t : State), exec i s = .next t →
    (t.stat = 4#8 ↔
      ((i = .syn ∨ i = .corr ∨ i = .dec) ∧ s.opa.extractLsb' 7 57 ≠ 0#57) ∨
      (i = .decs ∧ (stringLength s.opa ≠ 7 ∨ ∃ k, k < 7 ∧ byteOf s.opa k ≠ 0x30#8 ∧ byteOf s.opa k ≠ 0x31#8))) ∧
    (t.stat = 4#8 → t.res = 0#64)

/-- R147: UNMAPPED_SYNDROME is raised by SYN, CORR, DEC and DECS exactly when the operand is well-formed, its syndrome is not
0 and SYNTAB has no entry for it; RES is then 0. Under every admissible triple it is unreachable. -/
def Obligations.UnmappedIsATableMiss : Prop :=
  ∀ (i : Instr) (s t : State), exec i s = .next t →
    (t.stat = 5#8 ↔ ∃ r : Codeword,
      (((i = .syn ∨ i = .corr ∨ i = .dec) ∧ s.opa = r.setWidth 64) ∨ (i = .decs ∧ SpellsCodeword s.opa r)) ∧
      s.rom.syndrome r ≠ 0#3 ∧ (s.rom.lookup (s.rom.syndrome r)).valid = false) ∧
    (t.stat = 5#8 → t.res = 0#64) ∧
    (s.rom.Admissible → t.stat ≠ 5#8)

/-- R133, round trip: under every admissible triple, what ENC and ENCS give for v decodes to v with ERR = 0, S = 0 and
POS = 7, in both operand forms; SYN of it reports no error and CORR returns it. -/
def Obligations.DecodingAnEncodedNibbleReturnsIt : Prop :=
  ∀ (t : CodeTables) (v b : Operand), t.Admissible → v.toNat ≤ 15 → ∃ cw str : Operand,
    execRequest t ⟨0x00000002#32, v, b⟩ = ⟨.ok, cw⟩ ∧ execRequest t ⟨0x00000003#32, v, b⟩ = ⟨.ok, str⟩ ∧
    execRequest t ⟨0x00000004#32, cw, b⟩ = ⟨.ok, 0x7000#64⟩ ∧
    execRequest t ⟨0x00000005#32, cw, b⟩ = ⟨.ok, 0x7000#64 ||| cw⟩ ∧
    execRequest t ⟨0x00000006#32, cw, b⟩ = ⟨.ok, 0x7000#64 ||| v⟩ ∧
    execRequest t ⟨0x00000007#32, str, b⟩ = ⟨.ok, 0x7000#64 ||| v⟩

/-- R133, single-bit correction: under every admissible triple, flipping any one position p of ENC(v) decodes to v with
ERR = 1, POS = p and S = col_p(H), and CORR gives back ENC(v). -/
def Obligations.EverySingleBitErrorIsCorrected : Prop :=
  ∀ (t : CodeTables) (v : Nibble) (p : Nat) (b : Operand), t.Admissible → p < 7 →
    (∃ res, execRequest t ⟨0x00000006#32, (t.codeword v ^^^ positionMask p).setWidth 64, b⟩ = ⟨.ok, res⟩ ∧
      DecodeLayout res (v.setWidth 7) true (t.column p) (BitVec.ofNat 3 p)) ∧
    (∃ res, execRequest t ⟨0x00000005#32, (t.codeword v ^^^ positionMask p).setWidth 64, b⟩ = ⟨.ok, res⟩ ∧
      DecodeLayout res (t.codeword v) true (t.column p) (BitVec.ofNat 3 p))

/-- R133, totality and bijectivity: under every admissible triple the codewords and their single flips are all distinct and
are all 128 words, every 7-bit operand completes with OK, and each nonzero syndrome maps to exactly one position. -/
def Obligations.EverySevenBitWordDecodes : Prop :=
  ∀ t : CodeTables, t.Admissible →
    Function.Bijective (fun x : Nibble × Fin 8 =>
      t.codeword x.1 ^^^ (if x.2.val = 7 then 0#7 else positionMask x.2.val)) ∧
    (∀ (r : Codeword) (b : Operand), ∀ cmd ∈ [0x00000004#32, 0x00000005#32, 0x00000006#32],
      (execRequest t ⟨cmd, r.setWidth 64, b⟩).status = .ok) ∧
    (∀ synd : Syndrome, synd ≠ 0#3 → ∃ p : Fin 7, t.lookup synd = ⟨true, BitVec.ofNat 3 p.val⟩ ∧
      ∀ q : Fin 7, t.column q.val = synd ↔ q = p)

/-- R131: with exactly two positions a ≠ b in error, the unit completes with OK and ERR = 1, flips a third position, and
returns the data of another codeword, under every admissible triple. -/
def Obligations.DoubleBitErrorGivesWrongData : Prop :=
  ∀ (t : CodeTables) (v : Nibble) (a b : Nat) (opb : Operand), t.Admissible → a < 7 → b < 7 → a ≠ b →
    ∃ res, execRequest t ⟨0x00000006#32, (t.codeword v ^^^ positionMask a ^^^ positionMask b).setWidth 64, opb⟩ = ⟨.ok, res⟩ ∧
      errField res = true ∧ syndField res = t.column a ^^^ t.column b ∧ syndField res ≠ 0#3 ∧
      (posField res).toNat ≠ a ∧ (posField res).toNat ≠ b ∧ (posField res).toNat < 7 ∧
      dataField res ≠ v ∧
      ∃ corr, execRequest t ⟨0x00000005#32, (t.codeword v ^^^ positionMask a ^^^ positionMask b).setWidth 64, opb⟩ = ⟨.ok, corr⟩ ∧
        payloadField corr = t.codeword (dataField res)

/-- R134: the syndrome of a codeword with an error pattern is the syndrome of the pattern; for one position it is that
column of H, which the default tables give as 100, 010, 001, 110, 101, 011, 111. -/
def Obligations.SyndromeDependsOnTheErrorOnly : Prop :=
  (∀ (t : CodeTables) (v : Nibble), t.Admissible →
    (∀ e : Codeword, t.syndrome (t.codeword v ^^^ e) = t.syndrome e) ∧
    (∀ p, p < 7 → t.syndrome (t.codeword v ^^^ positionMask p) = t.column p)) ∧
  (∀ v : Nibble, (List.range 7).map (fun p => CodeTables.default.syndrome (CodeTables.default.codeword v ^^^ positionMask p)) =
    [0b100#3, 0b010#3, 0b001#3, 0b110#3, 0b101#3, 0b011#3, 0b111#3])

/-- `90_conflicts.md` C7, R129: S = 0 exactly when the received word is some codeword, and what CORR returns is always a
codeword, under every admissible triple. -/
def Obligations.SyndromeZeroIffSomeCodeword : Prop :=
  ∀ (t : CodeTables) (r : Codeword), t.Admissible →
    (t.syndrome r = 0#3 ↔ ∃ v : Nibble, r = t.codeword v) ∧
    ∀ b : Operand, ∃ v : Nibble,
      payloadField (execRequest t ⟨0x00000005#32, r.setWidth 64, b⟩).res = t.codeword v

/-! ### Code tables (`10_state.md`) -/

/-- R33: the default tables, word by word; they satisfy R29-R31 and reproduce the document's six scenarios: encode(10),
encode(11) and the decoding of four strings. -/
def Obligations.DefaultTablesAreAdmissible : Prop :=
  CodeTables.default.grow = #v[0b1101000#7, 0b1010100#7, 0b0110010#7, 0b1110001#7] ∧
  CodeTables.default.hrow = #v[0b1001101#7, 0b0101011#7, 0b0010111#7] ∧
  (CodeTables.default.lookup 0b000#3).valid = false ∧
  CodeTables.default.lookup 0b100#3 = ⟨true, 0#3⟩ ∧ CodeTables.default.lookup 0b010#3 = ⟨true, 1#3⟩ ∧
  CodeTables.default.lookup 0b001#3 = ⟨true, 2#3⟩ ∧ CodeTables.default.lookup 0b110#3 = ⟨true, 3#3⟩ ∧
  CodeTables.default.lookup 0b101#3 = ⟨true, 4#3⟩ ∧ CodeTables.default.lookup 0b011#3 = ⟨true, 5#3⟩ ∧
  CodeTables.default.lookup 0b111#3 = ⟨true, 6#3⟩ ∧
  (List.range 7).map CodeTables.default.column = [0b100#3, 0b010#3, 0b001#3, 0b110#3, 0b101#3, 0b011#3, 0b111#3] ∧
  CodeTables.default.Admissible ∧ CodeTables.default.MeetsExamples ∧ State.reset.rom = CodeTables.default ∧
  ∀ x ∈ [(0x0030313031313031#64, 0x700A#64), (0x0031313031303130#64, 0x700B#64), (0x0030313131313031#64, 0x458A#64),
         (0x0031313030303130#64, 0x368B#64)],
    execRequest CodeTables.default ⟨0x00000007#32, x.1, 0#64⟩ = ⟨.ok, x.2⟩

/-- R32: the admissible triples that reproduce the encode examples have exactly two generator matrices, G_B and G_A: each of
the two occurs in such a triple, and no other does. -/
def Obligations.ExamplesLeaveTwoGenerators : Prop :=
  ∀ g : Vector Codeword 4, (∃ t : CodeTables, t.Admissible ∧ t.MeetsExamples ∧ t.grow = g) ↔
    g = #v[0x68#7, 0x54#7, 0x32#7, 0x71#7] ∨ g = #v[0x38#7, 0x54#7, 0x62#7, 0x71#7]

/-- R32: each of the two generator matrices stands in admissible triples that reproduce the encode examples with exactly 24
matrices H, and in an admissible triple SYNTAB follows from H but for the unused POS of entry 000. -/
def Obligations.FortyEightTriplesAreAdmissible : Prop :=
  (∀ t u : CodeTables, t.Admissible → u.Admissible → t.hrow = u.hrow →
    ∀ synd : Syndrome, synd ≠ 0#3 → t.lookup synd = u.lookup synd) ∧
  ∀ g : Vector Codeword 4, g = #v[0x68#7, 0x54#7, 0x32#7, 0x71#7] ∨ g = #v[0x38#7, 0x54#7, 0x62#7, 0x71#7] →
    ∃ hs : List (Vector Codeword 3), hs.Nodup ∧ hs.length = 24 ∧
      ∀ h : Vector Codeword 3, h ∈ hs ↔
        ∃ t : CodeTables, t.Admissible ∧ t.MeetsExamples ∧ t.grow = g ∧ t.hrow = h

/-- `93_implementation_defined.md` U3, R8: the model accepts a configuration exactly when its tables satisfy R29-R31 and
LATENCY ≥ 1, and says by name why it does not (log entry 7). -/
def Obligations.ConfigureRefusesInadmissibleParameters : Prop :=
  ∀ (t : CodeTables) (n : Nat),
    (t.Admissible → 1 ≤ n → State.configure t n = .next (State.resetWith t n)) ∧
    (¬t.Admissible → State.configure t n = .refused .inadmissibleTables) ∧
    (t.Admissible → n = 0 → State.configure t n = .refused .zeroLatency)

/-! ### Request protocol, reset and whole-machine rules (`10_state.md`, `20_memory.md`, `60_exceptions.md`,
`70_reset_and_hazards.md`) -/

/-- R77, R163: a step runs the decoded instruction. A request accepted with LATENCY = 1 is run by the step that accepts it,
on the latched operands; a request in the last BUSY cycle is run by that cycle's step; and `withFetchWord` presents a
request that the very next step runs. This third clause is the model's own choice (DESIGN CHOICE, log entry 5: a ready unit,
LATENCY set to 1, operands 0), not a rule of the spec. -/
def Obligations.StepRunsTheDecodedInstruction : Prop :=
  (∀ (s : State) (i : Instr), s.accepts = true → s.latency = 1 → decode s.nextInput.reqCmd = .instr i →
    step s = exec i (s.dropInput.accept s.nextInput.request)) ∧
  (∀ (s : State) (i : Instr), s.nextInput.rst = false → s.inFlight = some 0 → decode s.cmd = .instr i →
    step s = exec i s.dropInput) ∧
  (∀ (s : State) (nbits w : Nat) (i : Instr), decodeTableWord nbits w = some i →
    step (s.withFetchWord nbits w) =
      exec i { s with inFlight := none, latency := 1, cmd := tableCommand nbits w, opa := 0#64, opb := 0#64 })

/-- R140, R149: every step of every state, and every instruction in every state, answers a next state; no request hangs,
faults or is refused. -/
def Obligations.EveryStepAnswersANextState : Prop :=
  (∀ s : State, ∃ t : State, step s = .next t) ∧ ∀ (i : Instr) (s : State), ∃ t : State, exec i s = .next t

/-- R149, R22: the frame of all seven operations. The latches, the ROMs, the parameter, the host's inputs and the draw count
are unchanged; `rsp_valid` becomes 1 and BUSY 0; STAT and RES are the only registers an operation writes. -/
def Obligations.OperationsWriteOnlyStatAndRes : Prop :=
  ∀ (i : Instr) (s t : State), exec i s = .next t →
    t.cmd = s.cmd ∧ t.opa = s.opa ∧ t.opb = s.opb ∧ t.rom = s.rom ∧ t.latency = s.latency ∧ t.inputs = s.inputs ∧
    t.draws = s.draws ∧ t.rspValid = true ∧ t.busy = false ∧ t.inFlight = none

/-- R143: a request that completes with an error code completes with RES = 0, whatever RES was. -/
def Obligations.ErrorCompletionHasZeroResult : Prop :=
  ∀ s t : State, complete s = .next t → t.stat ≠ 1#8 → t.res = 0#64 ∧ 2 ≤ t.stat.toNat ∧ t.stat.toNat ≤ 6

/-- R76: OPB is ignored by every operation but MATMUL. -/
def Obligations.OpbIsIgnoredByHammingOperations : Prop :=
  ∀ (i : Instr) (s t : State) (b : Operand), (∀ m nA nB p, i ≠ .matmul m nA nB p) → exec i s = .next t →
    exec i { s with opb := b } = .next { t with opb := b }

/-- R21: the outputs show `NOT BUSY AND NOT rst`, STAT and RES; at acceptance the latches load the request ports, and in any
cycle without acceptance or reset they keep their values, which is the model's reading (log entry 11). -/
def Obligations.LatchesLoadAtAcceptanceOnly : Prop :=
  ∀ s t : State, step s = .next t →
    s.outputs = ⟨!s.busy && !s.nextInput.rst, s.rspValid, s.stat, s.res⟩ ∧
    (s.nextInput.reqValid = true → s.reqReady = true → t.cmd = s.nextInput.reqCmd ∧ t.opa = s.nextInput.reqOpa ∧
      t.opb = s.nextInput.reqOpb) ∧
    (s.nextInput.rst = false → ¬(s.nextInput.reqValid = true ∧ s.reqReady = true) → t.latched = s.latched)

/-- R165, R21: what the host drives on the request ports in a cycle without acceptance has no effect: a request presented
while `req_ready = 0` is neither accepted nor queued. -/
def Obligations.UnacceptedRequestPortsHaveNoEffect : Prop :=
  ∀ (s : State) (inp : PortIn), s.nextInput.rst = inp.rst →
    (s.nextInput.rst = true ∨ s.busy = true ∨ (s.nextInput.reqValid = false ∧ inp.reqValid = false)) →
    step { s with inputs := inp :: s.inputs.tail } = step s

/-- R22, R163: a request accepted in cycle t completes in cycle t + LATENCY. In the cycles between, BUSY = 1, `req_ready` = 0,
`rsp_valid` = 0 and STAT and RES keep their values; in the completion cycle BUSY = 0, `rsp_valid` = 1, and STAT and RES are
what Exec gives. For every LATENCY ≥ 1. -/
def Obligations.AcceptedRequestCompletesAfterLatency : Prop :=
  ∀ s : State, 1 ≤ s.latency → s.accepts = true → s.NoReset s.latency →
    (∀ k, 0 < k → k < s.latency → ∃ u, runCycles k s = .next u ∧ u.busy = true ∧ u.reqReady = false ∧ u.rspValid = false ∧
      u.stat = s.stat ∧ u.res = s.res ∧ u.latched = s.nextInput.request) ∧
    ∃ t, runCycles s.latency s = .next t ∧ t.busy = false ∧ t.rspValid = true ∧
      t.stat = (execRequest s.rom s.nextInput.request).status.code ∧ t.res = (execRequest s.rom s.nextInput.request).res

/-- R22, R151: results are independent of history and of LATENCY. Two units with the same tables that accept the same request
show the same STAT and RES in its completion cycle. -/
def Obligations.SameRequestGivesSameAnswer : Prop :=
  ∀ s u : State, s.rom = u.rom → s.nextInput.request = u.nextInput.request → 1 ≤ s.latency → 1 ≤ u.latency →
    s.accepts = true → u.accepts = true → s.NoReset s.latency → u.NoReset u.latency →
    ∃ s' u', runCycles s.latency s = .next s' ∧ runCycles u.latency u = .next u' ∧
      s'.rspValid = true ∧ u'.rspValid = true ∧ s'.stat = u'.stat ∧ s'.res = u'.res

/-- R163: `rsp_valid` is a one-cycle pulse: it stays 1 for a second cycle only if LATENCY = 1 and a request was accepted in
the completion cycle. -/
def Obligations.ResponsePulseLastsOneCycle : Prop :=
  ∀ s t : State, s.Legal → step s = .next t → s.rspValid = true → t.rspValid = true → s.latency = 1 ∧ s.accepts = true

/-- R58, R164: the responses shown at completion cycles are Exec of the accepted requests, in acceptance order. Over any
number of cycles without reset, from any state, whatever LATENCY is and whatever the host drives: the responses shown,
followed by the answer of the request still in flight, are the answers of the request in flight at the start, followed by
those accepted. -/
def Obligations.ResponsesAreExecOfAcceptedRequests : Prop :=
  ∀ (n : Nat) (s : State), s.NoReset n → ∃ t, runCycles n s = .next t ∧
    responsesIn n s ++ t.pending.toList.map (fun r => (execRequest s.rom r).response) =
      (s.pending.toList ++ acceptedIn n s).map (fun r => (execRequest s.rom r).response)

/-- R164: with LATENCY = 1 and requests presented back to back, the cycle-level machine is the transaction-level machine: one
atomic step per request. -/
def Obligations.BackToBackRequestsAreTransactions : Prop :=
  ∀ (rs : List Request) (s : State), s.inFlight = none → s.latency = 1 → s.inputs = rs.map PortIn.present →
    runCycles rs.length s = .next (transactAll rs { s with inputs := [] })

/-- R160: in a cycle with `rst = 1` no request is accepted and `req_ready` is 0; at its end RES = 0, STAT = NONE, BUSY = 0 and
`rsp_valid` = 0, and the ROMs are unchanged; in the first cycle with `rst = 0` after it `req_ready` is 1. Power-up is such a
state. -/
def Obligations.ResetCycleGivesResetValues : Prop :=
  (∀ s : State, s.nextInput.rst = true → s.reqReady = false ∧ s.accepts = false ∧
    ∃ t, step s = .next t ∧ t.res = 0#64 ∧ t.stat = 0#8 ∧ t.busy = false ∧ t.rspValid = false ∧ t.rom = s.rom ∧
      (t.nextInput.rst = false → t.reqReady = true)) ∧
  (State.reset.res = 0#64 ∧ State.reset.stat = 0#8 ∧ State.reset.busy = false ∧ State.reset.rspValid = false ∧
    State.reset.reqReady = true)

/-- R161: if the host resets the unit in any cycle from the one that presents a request to a ready unit up to the one before
its completion, the request gives no response and leaves nothing but the reset values. That the first of these cycles counts is the model's
reading (log entry 14). -/
def Obligations.ResetAbandonsTheRequestInFlight : Prop :=
  ∀ (s : State) (j : Nat), s.busy = false → s.nextInput.reqValid = true → j < s.latency → s.NoReset j →
    (s.inputAt j).rst = true →
    responsesIn (j + 1) s = [] ∧
    ∃ t, runCycles (j + 1) s = .next t ∧ t.pending = none ∧ t.rspValid = false ∧ t.stat = 0#8 ∧ t.res = 0#64

/-- R57: STAT and RES change at a completion or a reset only, and then together. -/
def Obligations.ResultChangesOnlyAtCompletionOrReset : Prop :=
  ∀ s t : State, step s = .next t → s.nextInput.rst = false → t.rspValid = false → t.stat = s.stat ∧ t.res = s.res

/-- R34: no request, no reset and no input ever changes the ROMs or LATENCY, over any number of cycles. -/
def Obligations.RomsNeverChange : Prop :=
  ∀ (n : Nat) (s t : State), runCycles n s = .next t → t.rom = s.rom ∧ t.latency = s.latency

/-- Every step keeps the legal states: STAT is 0..6, RES is 0 unless STAT is OK, BUSY lasts at most LATENCY - 1 cycles,
`rsp_valid` = 1 means BUSY = 0 and a completed request, UNMAPPED_SYNDROME never appears, and the parameters stay
admissible (R35, R36, R141, R143, R147, R163). -/
def Obligations.StepKeepsLegalStates : Prop :=
  ∀ s t : State, s.Legal → step s = .next t → t.Legal

/-- The state right after reset is legal. -/
def Obligations.ResetStateIsLegal : Prop := State.reset.Legal

/-- U10 of `93_implementation_defined.md`, R141: every state that any accepted configuration reaches, under any inputs, is
legal; the STAT values 7..255 are unreachable. -/
def Obligations.EveryConfiguredRunStaysLegal : Prop :=
  ∀ (tables : CodeTables) (latency n : Nat) (inputs : List PortIn) (s₀ t : State),
    State.configure tables latency = .next s₀ → runCycles n { s₀ with inputs := inputs } = .next t →
    t.Legal ∧ Status.ofCode? t.stat ≠ none
end

