-- ==== Sys2Proof/Laws/Flags.lean ====
section
/-! SUPPORT. The bits of the decode-information layout, and that its fields are what it was packed from (`42_decoder.md`
R126). -/

namespace Sys2Proof.Machine

theorem getLsbD_decodeInfo (e : ErrorInfo) (payload : Codeword) (q : Nat) :
    (decodeInfo e payload).getLsbD q =
      if q < 7 then payload.getLsbD q
      else if q = 7 then e.err
      else if q < 11 then e.synd.getLsbD (q - 8)
      else if q = 11 then false
      else e.pos.getLsbD (q - 12) := by
  unfold decodeInfo
  rw [BitVec.getLsbD_setWidth, BitVec.getLsbD_append, BitVec.getLsbD_append, BitVec.getLsbD_append,
    BitVec.getLsbD_append]
  by_cases h7 : q < 7
  · simp [h7]; omega
  by_cases h8 : q = 7
  · subst h8; simp
  by_cases h11 : q < 11
  · have a : ¬(q - 7 < 1) := by omega
    have b : q - 7 - 1 < 3 := by omega
    have c : q < 64 := by omega
    simp only [h7, h8, h11, a, b, c, if_false, if_true, decide_true, Bool.true_and]
    congr 1
  by_cases h12 : q = 11
  · subst h12; simp
  have a : ¬(q - 7 < 1) := by omega
  have b : ¬(q - 7 - 1 < 3) := by omega
  have c : ¬(q - 7 - 1 - 3 < 1) := by omega
  have d : q - 7 - 1 - 3 - 1 = q - 12 := by omega
  simp only [h7, h8, h11, h12, a, b, c, d, if_false]
  by_cases h64 : q < 64
  · simp [h64]
  · have : 3 ≤ q - 12 := by omega
    simp [h64, BitVec.getLsbD_of_ge _ _ this]

theorem decodeInfo_layout (synd : Syndrome) (err : Bool) (pos : BitVec 3) (payload : Codeword) :
    DecodeLayout (decodeInfo ⟨synd, err, pos⟩ payload) payload err synd pos := by
  refine ⟨?_, ?_, ?_, ?_, ?_, ?_⟩
  · ext i hi
    simp [payloadField, getLsbD_decodeInfo, hi]
  · rw [errField, getLsbD_decodeInfo]; simp
  · ext i hi
    have a : ¬(8 + i < 7) := by omega
    have b : ¬(8 + i = 7) := by omega
    have c : 8 + i < 11 := by omega
    simp [syndField, getLsbD_decodeInfo, a, b, c, BitVec.getLsbD_eq_getElem hi]
  · rw [getLsbD_decodeInfo]; simp
  · ext i hi
    have a : ¬(12 + i < 7) := by omega
    have b : ¬(12 + i = 7) := by omega
    have c : ¬(12 + i < 11) := by omega
    have d : ¬(12 + i = 11) := by omega
    simp [posField, getLsbD_decodeInfo, a, b, c, d, BitVec.getLsbD_eq_getElem hi]
  · ext i hi
    have a : ¬(15 + i < 7) := by omega
    have b : ¬(15 + i = 7) := by omega
    have c : ¬(15 + i < 11) := by omega
    have d : ¬(15 + i = 11) := by omega
    have e : 3 ≤ 15 + i - 12 := by omega
    simp [getLsbD_decodeInfo, a, b, c, d, BitVec.getLsbD_of_ge _ _ e]

end Sys2Proof.Machine
end

