-- ==== Sys2Proof/Laws/Operands.lean ====
section
/-! SUPPORT. Small laws of the GF(2) sums and the packings: bits of `packBits`, bytes of `packString`, linearity of `parity` and of the
syndrome. -/

namespace Sys2Proof.Machine

theorem xorBelow_congr {n : Nat} {f g : Nat → Bool} (h : ∀ k, k < n → f k = g k) : xorBelow n f = xorBelow n g := by
  induction n with
  | zero => rfl
  | succ n ih =>
    simp only [xorBelow]
    rw [ih fun k hk => h k (Nat.lt_succ_of_lt hk), h n (Nat.lt_succ_self n)]

theorem xorBelow_false (n : Nat) : (xorBelow n fun _ => false) = false := by
  induction n with
  | zero => rfl
  | succ n ih => simp [xorBelow, ih]

theorem xorBelow_xor (n : Nat) (f g : Nat → Bool) :
    (xorBelow n fun k => f k ^^ g k) = (xorBelow n f ^^ xorBelow n g) := by
  induction n with
  | zero => rfl
  | succ n ih =>
    simp only [xorBelow, ih]
    cases xorBelow n f <;> cases xorBelow n g <;> cases f n <;> cases g n <;> rfl

@[simp] theorem getLsbD_packBits (w : Nat) (f : Nat → Bool) (k : Nat) :
    (packBits w f).getLsbD k = (decide (k < w) && f k) := by
  induction w with
  | zero => simp
  | succ w ih =>
    simp only [packBits, BitVec.getLsbD_cons, ih]
    by_cases h : k = w
    · simp [h]
    · have : (k < w + 1) ↔ (k < w) := by omega
      simp only [if_neg h, this]

theorem getLsbD_packMatrix (r c : Nat) (elem : Nat → Nat → Bool) (b : Nat) :
    (packMatrix r c elem).getLsbD b =
      (decide (b < 64) && (decide (b / 8 < r) && decide (b % 8 < c) && elem (b / 8) (c - 1 - b % 8))) := by
  simp [packMatrix]

@[simp] theorem parity_zero (w : Nat) : parity (0#w) = false := by
  simp [parity, xorBelow_congr (f := BitVec.getLsbD 0#w) (g := fun _ => false) (by simp), xorBelow_false]

theorem parity_xor {w : Nat} (u v : BitVec w) : parity (u ^^^ v) = (parity u ^^ parity v) := by
  rw [parity, parity, parity, ← xorBelow_xor]
  exact xorBelow_congr fun k _ => by simp

theorem parity_and_xor {w : Nat} (h u v : BitVec w) :
    parity (h &&& (u ^^^ v)) = (parity (h &&& u) ^^ parity (h &&& v)) := by
  rw [← parity_xor]
  congr 1
  ext i hi
  simp [Bool.and_xor_distrib_left]

theorem threeBits_xor (a b c a' b' c' : Bool) :
    threeBits (a ^^ a') (b ^^ b') (c ^^ c') = threeBits a b c ^^^ threeBits a' b' c' := by
  cases a <;> cases b <;> cases c <;> cases a' <;> cases b' <;> cases c' <;> decide

theorem CodeTables.syndrome_xor (t : CodeTables) (u v : Codeword) :
    t.syndrome (u ^^^ v) = t.syndrome u ^^^ t.syndrome v := by
  simp only [CodeTables.syndrome, parity_and_xor, threeBits_xor]

@[simp] theorem CodeTables.syndrome_zero (t : CodeTables) : t.syndrome 0#7 = 0#3 := by
  simp [CodeTables.syndrome, threeBits]

theorem byteOf_or (a b : Operand) (k : Nat) : byteOf (a ||| b) k = byteOf a k ||| byteOf b k := by
  ext i hi
  simp [byteOf]

theorem byteOf_setWidth_zero (c : Byte) : byteOf (c.setWidth 64) 0 = c := by
  ext i hi
  simp [byteOf, hi]
  omega

theorem byteOf_setWidth_succ (c : Byte) (k : Nat) : byteOf (c.setWidth 64) (k + 1) = 0#8 := by
  ext i hi
  simp [byteOf]
  exact fun _ => BitVec.getLsbD_of_ge _ _ (by omega)

theorem byteOf_shift_zero (x : Operand) : byteOf (x <<< 8) 0 = 0#8 := by
  ext i hi
  simp [byteOf]
  omega

theorem byteOf_shift_succ (x : Operand) (k : Nat) (hk : k + 1 < 8) : byteOf (x <<< 8) (k + 1) = byteOf x k := by
  ext i hi
  have e : 8 * (k + 1) + i - 8 = 8 * k + i := by omega
  simp [byteOf, e]
  omega

/-- Character `k` of a packed string is byte `k`, and the bytes past its end are 0x00 (R55). -/
theorem byteOf_packString (l : List Byte) (k : Nat) (hk : k < 8) : byteOf (packString l) k = l.getD k 0#8 := by
  induction l generalizing k with
  | nil => simp [packString, byteOf]
  | cons c cs ih =>
    rw [packString, byteOf_or]
    cases k with
    | zero => simp [byteOf_setWidth_zero, byteOf_shift_zero]
    | succ k => simp [byteOf_setWidth_succ, byteOf_shift_succ _ _ hk, ih k (by omega)]

end Sys2Proof.Machine
end

