-- ==== Sys2Proof/Laws/State.lean ====
section
/-! SUPPORT. What each update of the state does to each field: true by rfl, so that no proof unfolds a record update. -/

namespace Sys2Proof.Machine

@[simp] theorem State.dropInput_res (s : State) : s.dropInput.res = s.res := rfl
@[simp] theorem State.dropInput_stat (s : State) : s.dropInput.stat = s.stat := rfl
@[simp] theorem State.dropInput_inFlight (s : State) : s.dropInput.inFlight = s.inFlight := rfl
@[simp] theorem State.dropInput_rspValid (s : State) : s.dropInput.rspValid = s.rspValid := rfl
@[simp] theorem State.dropInput_cmd (s : State) : s.dropInput.cmd = s.cmd := rfl
@[simp] theorem State.dropInput_opa (s : State) : s.dropInput.opa = s.opa := rfl
@[simp] theorem State.dropInput_opb (s : State) : s.dropInput.opb = s.opb := rfl
@[simp] theorem State.dropInput_rom (s : State) : s.dropInput.rom = s.rom := rfl
@[simp] theorem State.dropInput_latency (s : State) : s.dropInput.latency = s.latency := rfl
@[simp] theorem State.dropInput_inputs (s : State) : s.dropInput.inputs = s.inputs.tail := rfl
@[simp] theorem State.dropInput_draws (s : State) : s.dropInput.draws = s.draws := rfl

@[simp] theorem State.accept_res (r : Request) (s : State) : (s.accept r).res = s.res := rfl
@[simp] theorem State.accept_stat (r : Request) (s : State) : (s.accept r).stat = s.stat := rfl
@[simp] theorem State.accept_inFlight (r : Request) (s : State) : (s.accept r).inFlight = s.inFlight := rfl
@[simp] theorem State.accept_rspValid (r : Request) (s : State) : (s.accept r).rspValid = s.rspValid := rfl
@[simp] theorem State.accept_cmd (r : Request) (s : State) : (s.accept r).cmd = r.cmd := rfl
@[simp] theorem State.accept_opa (r : Request) (s : State) : (s.accept r).opa = r.opa := rfl
@[simp] theorem State.accept_opb (r : Request) (s : State) : (s.accept r).opb = r.opb := rfl
@[simp] theorem State.accept_rom (r : Request) (s : State) : (s.accept r).rom = s.rom := rfl
@[simp] theorem State.accept_latency (r : Request) (s : State) : (s.accept r).latency = s.latency := rfl
@[simp] theorem State.accept_inputs (r : Request) (s : State) : (s.accept r).inputs = s.inputs := rfl
@[simp] theorem State.accept_draws (r : Request) (s : State) : (s.accept r).draws = s.draws := rfl

@[simp] theorem State.startBusy_res (s : State) : s.startBusy.res = s.res := rfl
@[simp] theorem State.startBusy_stat (s : State) : s.startBusy.stat = s.stat := rfl
@[simp] theorem State.startBusy_inFlight (s : State) : s.startBusy.inFlight = some (s.latency - 2) := rfl
@[simp] theorem State.startBusy_rspValid (s : State) : s.startBusy.rspValid = false := rfl
@[simp] theorem State.startBusy_cmd (s : State) : s.startBusy.cmd = s.cmd := rfl
@[simp] theorem State.startBusy_opa (s : State) : s.startBusy.opa = s.opa := rfl
@[simp] theorem State.startBusy_opb (s : State) : s.startBusy.opb = s.opb := rfl
@[simp] theorem State.startBusy_rom (s : State) : s.startBusy.rom = s.rom := rfl
@[simp] theorem State.startBusy_latency (s : State) : s.startBusy.latency = s.latency := rfl
@[simp] theorem State.startBusy_inputs (s : State) : s.startBusy.inputs = s.inputs := rfl
@[simp] theorem State.startBusy_draws (s : State) : s.startBusy.draws = s.draws := rfl

@[simp] theorem State.countDown_res (k : Nat) (s : State) : (s.countDown k).res = s.res := rfl
@[simp] theorem State.countDown_stat (k : Nat) (s : State) : (s.countDown k).stat = s.stat := rfl
@[simp] theorem State.countDown_inFlight (k : Nat) (s : State) : (s.countDown k).inFlight = some k := rfl
@[simp] theorem State.countDown_rspValid (k : Nat) (s : State) : (s.countDown k).rspValid = false := rfl
@[simp] theorem State.countDown_cmd (k : Nat) (s : State) : (s.countDown k).cmd = s.cmd := rfl
@[simp] theorem State.countDown_opa (k : Nat) (s : State) : (s.countDown k).opa = s.opa := rfl
@[simp] theorem State.countDown_opb (k : Nat) (s : State) : (s.countDown k).opb = s.opb := rfl
@[simp] theorem State.countDown_rom (k : Nat) (s : State) : (s.countDown k).rom = s.rom := rfl
@[simp] theorem State.countDown_latency (k : Nat) (s : State) : (s.countDown k).latency = s.latency := rfl
@[simp] theorem State.countDown_inputs (k : Nat) (s : State) : (s.countDown k).inputs = s.inputs := rfl
@[simp] theorem State.countDown_draws (k : Nat) (s : State) : (s.countDown k).draws = s.draws := rfl

@[simp] theorem State.idleCycle_res (s : State) : s.idleCycle.res = s.res := rfl
@[simp] theorem State.idleCycle_stat (s : State) : s.idleCycle.stat = s.stat := rfl
@[simp] theorem State.idleCycle_inFlight (s : State) : s.idleCycle.inFlight = s.inFlight := rfl
@[simp] theorem State.idleCycle_rspValid (s : State) : s.idleCycle.rspValid = false := rfl
@[simp] theorem State.idleCycle_cmd (s : State) : s.idleCycle.cmd = s.cmd := rfl
@[simp] theorem State.idleCycle_opa (s : State) : s.idleCycle.opa = s.opa := rfl
@[simp] theorem State.idleCycle_opb (s : State) : s.idleCycle.opb = s.opb := rfl
@[simp] theorem State.idleCycle_rom (s : State) : s.idleCycle.rom = s.rom := rfl
@[simp] theorem State.idleCycle_latency (s : State) : s.idleCycle.latency = s.latency := rfl
@[simp] theorem State.idleCycle_inputs (s : State) : s.idleCycle.inputs = s.inputs := rfl
@[simp] theorem State.idleCycle_draws (s : State) : s.idleCycle.draws = s.draws := rfl

@[simp] theorem State.finish_res (c : Status) (v : Operand) (s : State) : (s.finish c v).res = v := rfl
@[simp] theorem State.finish_stat (c : Status) (v : Operand) (s : State) : (s.finish c v).stat = c.code := rfl
@[simp] theorem State.finish_inFlight (c : Status) (v : Operand) (s : State) : (s.finish c v).inFlight = none := rfl
@[simp] theorem State.finish_rspValid (c : Status) (v : Operand) (s : State) : (s.finish c v).rspValid = true := rfl
@[simp] theorem State.finish_cmd (c : Status) (v : Operand) (s : State) : (s.finish c v).cmd = s.cmd := rfl
@[simp] theorem State.finish_opa (c : Status) (v : Operand) (s : State) : (s.finish c v).opa = s.opa := rfl
@[simp] theorem State.finish_opb (c : Status) (v : Operand) (s : State) : (s.finish c v).opb = s.opb := rfl
@[simp] theorem State.finish_rom (c : Status) (v : Operand) (s : State) : (s.finish c v).rom = s.rom := rfl
@[simp] theorem State.finish_latency (c : Status) (v : Operand) (s : State) : (s.finish c v).latency = s.latency := rfl
@[simp] theorem State.finish_inputs (c : Status) (v : Operand) (s : State) : (s.finish c v).inputs = s.inputs := rfl
@[simp] theorem State.finish_draws (c : Status) (v : Operand) (s : State) : (s.finish c v).draws = s.draws := rfl

@[simp] theorem State.applyReset_res (s : State) : s.applyReset.res = 0#64 := rfl
@[simp] theorem State.applyReset_stat (s : State) : s.applyReset.stat = 0#8 := rfl
@[simp] theorem State.applyReset_inFlight (s : State) : s.applyReset.inFlight = none := rfl
@[simp] theorem State.applyReset_rspValid (s : State) : s.applyReset.rspValid = false := rfl
@[simp] theorem State.applyReset_cmd (s : State) : s.applyReset.cmd = Config.latchCmdAtReset s.draws := rfl
@[simp] theorem State.applyReset_opa (s : State) : s.applyReset.opa = Config.latchOpaAtReset s.draws := rfl
@[simp] theorem State.applyReset_opb (s : State) : s.applyReset.opb = Config.latchOpbAtReset s.draws := rfl
@[simp] theorem State.applyReset_rom (s : State) : s.applyReset.rom = s.rom := rfl
@[simp] theorem State.applyReset_latency (s : State) : s.applyReset.latency = s.latency := rfl
@[simp] theorem State.applyReset_inputs (s : State) : s.applyReset.inputs = s.inputs := rfl
@[simp] theorem State.applyReset_draws (s : State) : s.applyReset.draws = s.draws + 1 := rfl

@[simp] theorem State.presentNow_res (r : Request) (s : State) : (s.presentNow r).res = s.res := rfl
@[simp] theorem State.presentNow_stat (r : Request) (s : State) : (s.presentNow r).stat = s.stat := rfl
@[simp] theorem State.presentNow_inFlight (r : Request) (s : State) : (s.presentNow r).inFlight = none := rfl
@[simp] theorem State.presentNow_rspValid (r : Request) (s : State) : (s.presentNow r).rspValid = s.rspValid := rfl
@[simp] theorem State.presentNow_cmd (r : Request) (s : State) : (s.presentNow r).cmd = s.cmd := rfl
@[simp] theorem State.presentNow_opa (r : Request) (s : State) : (s.presentNow r).opa = s.opa := rfl
@[simp] theorem State.presentNow_opb (r : Request) (s : State) : (s.presentNow r).opb = s.opb := rfl
@[simp] theorem State.presentNow_rom (r : Request) (s : State) : (s.presentNow r).rom = s.rom := rfl
@[simp] theorem State.presentNow_latency (r : Request) (s : State) : (s.presentNow r).latency = 1 := rfl
@[simp] theorem State.presentNow_inputs (r : Request) (s : State) : (s.presentNow r).inputs = PortIn.present r :: s.inputs := rfl
@[simp] theorem State.presentNow_draws (r : Request) (s : State) : (s.presentNow r).draws = s.draws := rfl

@[simp] theorem State.resetWith_res (t : CodeTables) (n : Nat) : (State.resetWith t n).res = 0#64 := rfl
@[simp] theorem State.resetWith_stat (t : CodeTables) (n : Nat) : (State.resetWith t n).stat = 0#8 := rfl
@[simp] theorem State.resetWith_inFlight (t : CodeTables) (n : Nat) : (State.resetWith t n).inFlight = none := rfl
@[simp] theorem State.resetWith_rspValid (t : CodeTables) (n : Nat) : (State.resetWith t n).rspValid = false := rfl
@[simp] theorem State.resetWith_rom (t : CodeTables) (n : Nat) : (State.resetWith t n).rom = t := rfl
@[simp] theorem State.resetWith_latency (t : CodeTables) (n : Nat) : (State.resetWith t n).latency = n := rfl
@[simp] theorem State.resetWith_inputs (t : CodeTables) (n : Nat) : (State.resetWith t n).inputs = [] := rfl

@[simp] theorem State.finishWith_eq (c : Completion) (s : State) : s.finishWith c = s.finish c.status c.res := rfl
@[simp] theorem State.raise_eq (e : Status) (s : State) : s.raise e = s.finish e 0#64 := rfl
@[simp] theorem Completion.ok_status (v : Operand) : (Completion.ok v).status = .ok := rfl
@[simp] theorem Completion.ok_res (v : Operand) : (Completion.ok v).res = v := rfl
@[simp] theorem Completion.error_status (e : Status) : (Completion.error e).status = e := rfl
@[simp] theorem Completion.error_res (e : Status) : (Completion.error e).res = 0#64 := rfl

end Sys2Proof.Machine
end

