-- ==== Sys2Proof/Laws/Ops.lean ====
section
/-! SUPPORT. What each shared operation can do, said once: the meanings as one `finish`, the edge that completes a
request, and the five cases of a step. -/

namespace Sys2Proof.Machine

/-- Every meaning is one `finish` with what the operation ends in. -/
theorem exec_eq_finish (i : Instr) (s : State) :
    exec i s = .next (s.finishWith (perform s.rom i s.opa s.opb)) := by
  cases i <;> rfl

/-- The completion edge is one `finish` with what the latched request ends in. -/
theorem complete_eq_finish (s : State) : complete s = .next (s.finishWith (execRequest s.rom s.latched)) := by
  unfold complete execRequest
  simp only [State.latched]
  cases decode s.cmd with
  | instr i => exact exec_eq_finish i s
  | illegal why => rfl

theorem step_of_rst {s : State} (h : s.nextInput.rst = true) : step s = .next s.dropInput.applyReset := by
  simp [step, cycle, h]

theorem step_of_waiting {s : State} {k : Nat} (h : s.nextInput.rst = false) (hk : s.inFlight = some (k + 1)) :
    step s = .next (s.dropInput.countDown k) := by
  simp [step, cycle, h, hk]

theorem step_of_last {s : State} (h : s.nextInput.rst = false) (hk : s.inFlight = some 0) :
    step s = complete s.dropInput := by
  simp [step, cycle, h, hk]

theorem step_of_request {s : State} (h : s.nextInput.rst = false) (hk : s.inFlight = none)
    (hv : s.nextInput.reqValid = true) : step s = acceptCycle s.nextInput.request s.dropInput := by
  simp [step, cycle, h, hk, hv]

theorem step_of_idle {s : State} (h : s.nextInput.rst = false) (hk : s.inFlight = none)
    (hv : s.nextInput.reqValid = false) : step s = .next s.dropInput.idleCycle := by
  simp [step, cycle, h, hk, hv]

/-- What a step can do: reset, a BUSY cycle, the completion of the latched request, an acceptance (with or without its
completion), or an idle cycle. -/
theorem step_cases {s t : State} (h : step s = .next t) :
    (s.nextInput.rst = true ∧ t = s.dropInput.applyReset) ∨
    (∃ k, s.nextInput.rst = false ∧ s.inFlight = some (k + 1) ∧ t = s.dropInput.countDown k) ∨
    (s.nextInput.rst = false ∧ s.inFlight = some 0 ∧
      t = s.dropInput.finishWith (execRequest s.rom s.latched)) ∨
    (s.accepts = true ∧ s.latency ≤ 1 ∧
      t = (s.dropInput.accept s.nextInput.request).finishWith (execRequest s.rom s.nextInput.request)) ∨
    (s.accepts = true ∧ 2 ≤ s.latency ∧ t = (s.dropInput.accept s.nextInput.request).startBusy) ∨
    (s.nextInput.rst = false ∧ s.inFlight = none ∧ s.nextInput.reqValid = false ∧ t = s.dropInput.idleCycle) := by
  by_cases hr : s.nextInput.rst = true
  · rw [step_of_rst hr] at h
    exact .inl ⟨hr, by cases h; rfl⟩
  · have hr : s.nextInput.rst = false := by simpa using hr
    rcases hk : s.inFlight with _ | _ | k
    · by_cases hv : s.nextInput.reqValid = true
      · have ha : s.accepts = true := by simp [State.accepts, State.reqReady, State.busy, hr, hk, hv]
        rw [step_of_request hr hk hv] at h
        unfold acceptCycle at h
        by_cases hl : s.latency ≤ 1
        · rw [if_pos (by simpa using hl), complete_eq_finish] at h
          exact .inr (.inr (.inr (.inl ⟨ha, hl, by cases h; rfl⟩)))
        · rw [if_neg (by simpa using hl)] at h
          exact .inr (.inr (.inr (.inr (.inl ⟨ha, by omega, by cases h; rfl⟩))))
      · have hv : s.nextInput.reqValid = false := by simpa using hv
        rw [step_of_idle hr hk hv] at h
        exact .inr (.inr (.inr (.inr (.inr ⟨hr, rfl, hv, by cases h; rfl⟩))))
    · rw [step_of_last hr hk, complete_eq_finish] at h
      exact .inr (.inr (.inl ⟨hr, rfl, by cases h; rfl⟩))
    · rw [step_of_waiting hr hk] at h
      exact .inr (.inl ⟨k, hr, rfl, by cases h; rfl⟩)

@[simp] theorem locateError_of_zero {t : CodeTables} {r : Codeword} (h : t.syndrome r = 0#3) :
    locateError t r = some ⟨0#3, false, 7#3⟩ := by
  simp [locateError, h]

theorem locateError_of_hit {t : CodeTables} {r : Codeword} (h : t.syndrome r ≠ 0#3)
    (hv : (t.lookup (t.syndrome r)).valid = true) :
    locateError t r = some ⟨t.syndrome r, true, (t.lookup (t.syndrome r)).pos⟩ := by
  simp [locateError, h, hv]

theorem locateError_of_miss {t : CodeTables} {r : Codeword} (h : t.syndrome r ≠ 0#3)
    (hv : (t.lookup (t.syndrome r)).valid = false) : locateError t r = none := by
  simp [locateError, h, hv]

end Sys2Proof.Machine
end

