-- ==== Sys2Proof/Laws/PerInstr.lean ====
section
/-! SUPPORT. Facts said of every instruction, one lemma per constructor: the encoding of each lies in its row of the match
table (`30_encoding.md` R74). -/

namespace Sys2Proof.Laws.PatternRow

/-- The command word of a well-formed instruction is selected by the instruction's own row, which is a row of the
table (R74). -/
def Statement (i : Instr) : Prop :=
  i.wellFormed = true → (patternRow i).selects (encode i) = true ∧ patternRow i ∈ patternTable

theorem dimOk_iff (d : Nat) : dimOk d = true ↔ 1 ≤ d ∧ d ≤ 8 := by
  simp only [dimOk, Bool.and_eq_true, decide_eq_true_eq]
  exact Iff.rfl

theorem dimBits_masked (d lo : Nat) (h : dimOk d = true) (hlo : lo = 4 ∨ lo = 7 ∨ lo = 10 ∨ lo = 13) :
    dimBits d lo &&& 0xFFFF000F#32 = 0#32 := by
  obtain ⟨h1, h2⟩ := (dimOk_iff d).1 h
  have key : ∀ d : Fin 9, ∀ lo ∈ [4, 7, 10, 13], dimBits d.val lo &&& 0xFFFF000F#32 = 0#32 := by decide
  exact key ⟨d, by omega⟩ lo (by simpa using hlo)

theorem matmul (m nA nB p : Nat) : Statement (.matmul m nA nB p) := by
  intro h
  simp only [Instr.wellFormed, Bool.and_eq_true] at h
  refine ⟨?_, by simp [patternRow, patternTable]⟩
  have e : ∀ a b c d e f : CmdWord, (a ||| b ||| c ||| d ||| e) &&& f =
      (a &&& f) ||| (b &&& f) ||| (c &&& f) ||| (d &&& f) ||| (e &&& f) := by
    intros; ext i hi; simp [Bool.and_or_distrib_right]
  simp only [PatternRow.selects, patternRow, encode, e, dimBits_masked _ _ h.1.1.1 (.inl rfl),
    dimBits_masked _ _ h.1.1.2 (.inr (.inl rfl)), dimBits_masked _ _ h.1.2 (.inr (.inr (.inl rfl))),
    dimBits_masked _ _ h.2 (.inr (.inr (.inr rfl)))]
  decide

theorem enc : Statement .enc := fun _ => by decide
theorem encs : Statement .encs := fun _ => by decide
theorem syn : Statement .syn := fun _ => by decide
theorem corr : Statement .corr := fun _ => by decide
theorem dec : Statement .dec := fun _ => by decide
theorem decs : Statement .decs := fun _ => by decide

end Sys2Proof.Laws.PatternRow
end

