-- ==== Sys2Proof/Tests/Slice0.lean ====
section
/-! SUPPORT. Tests of the model: the checks of WellFormed, words written out from the encodings, single steps with the
answers of `95_test_vectors.md`, and for each statement with hypotheses a witness that meets them all. -/

namespace Sys2Proof.Tests

open Sys2Proof Sys2Proof.Machine

/-! ### WellFormed: an ill-formed term for each check -/

theorem test_refuses_zero_m : (Instr.matmul 0 4 4 7).wellFormed = false := by decide
theorem test_refuses_nine_m : (Instr.matmul 9 4 4 7).wellFormed = false := by decide
theorem test_refuses_zero_nA : (Instr.matmul 1 0 4 7).wellFormed = false := by decide
theorem test_refuses_nine_nA : (Instr.matmul 1 9 4 7).wellFormed = false := by decide
theorem test_refuses_zero_nB : (Instr.matmul 1 4 0 7).wellFormed = false := by decide
theorem test_refuses_nine_nB : (Instr.matmul 1 4 9 7).wellFormed = false := by decide
theorem test_refuses_zero_p : (Instr.matmul 1 4 4 0).wellFormed = false := by decide
theorem test_refuses_nine_p : (Instr.matmul 1 4 4 9).wellFormed = false := by decide
theorem test_accepts_corner_dims : (Instr.matmul 1 8 8 1).wellFormed = true := by decide

/-! ### Words written out bit by bit from R71 and R74: `CMD[15:13]` = p-1, `[12:10]` = nB-1, `[9:7]` = nA-1, `[6:4]` = m-1 -/

theorem test_word_matmul : decode 0b0000000000000000_110_011_011_000_0001#32 = .instr (.matmul 1 4 4 7) := by decide
theorem test_word_matmul_unequal : decode 0b0000000000000000_001_010_100_111_0001#32 = .instr (.matmul 8 5 3 2) := by decide
theorem test_word_enc : decode 0b0000000000000000000000000000_0010#32 = .instr .enc := by decide
theorem test_word_encs : decode 0b0000000000000000000000000000_0011#32 = .instr .encs := by decide
theorem test_word_syn : decode 0b0000000000000000000000000000_0100#32 = .instr .syn := by decide
theorem test_word_corr : decode 0b0000000000000000000000000000_0101#32 = .instr .corr := by decide
theorem test_word_dec : decode 0b0000000000000000000000000000_0110#32 = .instr .dec := by decide
theorem test_word_decs : decode 0b0000000000000000000000000000_0111#32 = .instr .decs := by decide
theorem test_word_op0 : decode 0x00000000#32 = .illegal (.reservedOp 0x0#4) := by decide
theorem test_word_op8 : decode 0x00000008#32 = .illegal (.reservedOp 0x8#4) := by decide
theorem test_word_opF : decode 0xFFFFFFFF#32 = .illegal (.reservedOp 0xF#4) := by decide
theorem test_word_matmul_bit16 : decode 0x00010001#32 = .illegal (.matmulReservedBits 1#16) := by decide
theorem test_word_enc_bit4 : decode 0x00000012#32 = .illegal (.reservedBits 0x2#4 1#28) := by decide

/-! ### Single steps: the answers of `95_test_vectors.md` -/

/-- A unit with the default tables, ready, with the given LATENCY and inputs; its latches are 0. -/
def unit (latency : Nat) (inputs : List PortIn) : State :=
  { res := 0#64, stat := 0#8, inFlight := none, rspValid := false, cmd := 0#32, opa := 0#64, opb := 0#64,
    rom := CodeTables.default, latency := latency, inputs := inputs, draws := 1 }

/-- The state an outcome holds. -/
def next? (o : Host.Outcome State Fault Refusal) : Option State :=
  match o with
  | .next t => some t
  | .fault _ => none
  | .refused _ => none

/-- STAT and RES after the one step that accepts and completes a request with LATENCY = 1. -/
def answer (cmd : CmdWord) (opa opb : Operand) : Option (StatWord × Operand) :=
  (next? (step (unit 1 [PortIn.present ⟨cmd, opa, opb⟩]))).bind fun t => t.responseNow

theorem test_matmul_two_by_two : answer 0x00002911#32 0x605#64 0x020103#64 = some (1#8, 0x0201#64) := by decide +kernel
theorem test_matmul_dim_mismatch : answer 0x0000C981#32 0xA#64 0x71325468#64 = some (2#8, 0#64) := by decide +kernel
theorem test_enc_10 : answer 0x00000002#32 10#64 0#64 = some (1#8, 0x5A#64) := by decide
theorem test_enc_16 : answer 0x00000002#32 16#64 0#64 = some (3#8, 0#64) := by decide
theorem test_encs_10 : answer 0x00000003#32 10#64 0#64 = some (1#8, 0x0030313031313031#64) := by decide
theorem test_encs_11 : answer 0x00000003#32 11#64 0#64 = some (1#8, 0x0031313031303130#64) := by decide
theorem test_syn_position_0 : answer 0x00000004#32 0x1A#64 0#64 = some (1#8, 0x0480#64) := by decide
theorem test_syn_zero_word : answer 0x00000004#32 0#64 0#64 = some (1#8, 0x7000#64) := by decide
theorem test_corr_position_6 : answer 0x00000005#32 0x7E#64 0#64 = some (1#8, 0x67FF#64) := by decide
theorem test_corr_bit_8 : answer 0x00000005#32 0x100#64 0#64 = some (4#8, 0#64) := by decide
theorem test_dec_position_4 : answer 0x00000006#32 0x5E#64 0#64 = some (1#8, 0x458A#64) := by decide
theorem test_dec_codeword : answer 0x00000006#32 0x2B#64 0#64 = some (1#8, 0x700B#64) := by decide
theorem test_decs_position_3 : answer 0x00000007#32 0x0031313030303130#64 0#64 = some (1#8, 0x368B#64) := by decide
theorem test_decs_six_chars : answer 0x00000007#32 0x0000313031313031#64 0#64 = some (4#8, 0#64) := by decide
theorem test_illegal_op : answer 0x00010001#32 1#64 1#64 = some (6#8, 0#64) := by decide

/-! ### Single cycles of the request protocol (R160, R163) -/

/-- A request used below: ENC 10. -/
def encTen : Request := ⟨0x00000002#32, 10#64, 0#64⟩

/-- With LATENCY = 2 the acceptance edge only latches: BUSY = 1, no response. -/
theorem test_latency_two_is_busy :
    (next? (step (unit 2 [PortIn.present encTen]))).map (fun t => (t.busy, t.rspValid, t.stat, t.latched)) =
      some (true, false, 0#8, encTen) := by decide

/-- The edge that ends the last BUSY cycle completes the latched request, whatever the ports show. -/
theorem test_last_busy_cycle_completes :
    (next? (step { unit 2 [PortIn.present ⟨0x00000002#32, 15#64, 0#64⟩] with
      inFlight := some 0, cmd := 0x00000002#32, opa := 10#64 })).map (fun t => (t.busy, t.rspValid, t.res)) =
      some (false, true, 0x5A#64) := by decide

/-- A reset cycle abandons the request in flight and drives `req_ready` low. -/
theorem test_reset_abandons :
    ({ unit 2 [⟨true, true, 2#32, 3#64, 0#64⟩] with inFlight := some 0, cmd := 0x00000002#32, opa := 10#64 } : State).reqReady
      = false ∧
    (next? (step { unit 2 [⟨true, true, 2#32, 3#64, 0#64⟩] with
      inFlight := some 0, cmd := 0x00000002#32, opa := 10#64 })).map (fun t => (t.busy, t.rspValid, t.stat, t.res)) =
      some (false, false, 0#8, 0#64) := by decide

/-! ### Assembler text (R78, R79) -/

theorem test_line_matmul :
    assembleLine "MATMUL 1,4,4,7, 10, 0x71325468 ; ENC 10".toList =
      .request ⟨0x0000CD81#32, 10#64, 0x71325468#64⟩ := by decide +kernel
theorem test_line_lower_case_bits : assembleLine "dec '1011110'".toList = .request ⟨0x00000006#32, 0x5E#64, 0#64⟩ := by
  decide +kernel
theorem test_line_hex_either_case :
    assembleLine "SYN 0x5e".toList = assembleLine "syn 0x5E".toList ∧
      assembleLine "SYN 0x5e".toList = .request ⟨0x00000004#32, 0x5E#64, 0#64⟩ ∧
      assembleLine "SYN 5e".toList = .rejected := by decide +kernel
theorem test_line_string :
    assembleLine "DECS \"1011x10\"".toList = .request ⟨0x00000007#32, 0x0030317831313031#64, 0#64⟩ := by decide +kernel
theorem test_line_dimension_nine : assembleLine "MATMUL 9,4,4,7, 10, 0".toList = .rejected := by decide +kernel

/-! ### Witnesses: concrete states and operands that meet the hypotheses of each statement -/

/-- The latched request of `unit`. -/
def holding (cmd : CmdWord) (opa opb : Operand) : State := { unit 1 [] with cmd := cmd, opa := opa, opb := opb }

/-- The default tables with SYNTAB entry 101 taken out. -/
def tableWithMiss : CodeTables :=
  { CodeTables.default with
    syntab := #v[⟨false, 0⟩, ⟨true, 2⟩, ⟨true, 1⟩, ⟨true, 5⟩, ⟨true, 0⟩, ⟨false, 0⟩, ⟨true, 3⟩, ⟨true, 6⟩] }

/-- Another admissible triple: `G_A` of R32, with the columns 100, 001, 010 in positions 0, 1, 2 of H. -/
def otherTables : CodeTables where
  grow := #v[0x38#7, 0x54#7, 0x62#7, 0x71#7]
  hrow := #v[0x47#7, 0x1D#7, 0x2B#7]
  syntab := #v[⟨false, 0⟩, ⟨true, 1⟩, ⟨true, 2⟩, ⟨true, 3⟩, ⟨true, 0⟩, ⟨true, 5⟩, ⟨true, 4⟩, ⟨true, 6⟩]

/-- Tables with a VALID entry at POS = 7 for the syndrome 101. -/
def tableWithNoPosition : CodeTables :=
  { CodeTables.default with
    syntab := #v[⟨false, 0⟩, ⟨true, 2⟩, ⟨true, 1⟩, ⟨true, 5⟩, ⟨true, 0⟩, ⟨true, 7⟩, ⟨true, 3⟩, ⟨true, 6⟩] }

theorem witness_default_admissible : CodeTables.default.Admissible := by decide +kernel
theorem witness_other_admissible : otherTables.Admissible ∧ otherTables.MeetsExamples := by decide +kernel
theorem witness_miss_inadmissible : ¬tableWithMiss.Admissible := by decide +kernel

theorem witness_DecodeOfEncodeIsTheInstruction :
    (Instr.matmul 1 1 1 1).wellFormed = true ∧ (Instr.matmul 8 8 8 8).wellFormed = true := by decide
theorem witness_EncodeOfDecodeIsTheWord : decode 0x0000FFF1#32 = .instr (.matmul 8 8 8 8) := by decide
theorem witness_PatternRowsSelectOperations :
    decode 0x00000001#32 = .instr (.matmul 1 1 1 1) ∧ ⟨0xFFFF000F#32, 0x00000001#32⟩ ∈ patternTable ∧
      0x0000FFF1#32 &&& 0xFFFF000F#32 = 0x00000001#32 := by decide
theorem witness_ReservedWordsCompleteWithIllegalOp :
    ReservedWord 0x00000000#32 ∧ ReservedWord 0x00000008#32 ∧ ReservedWord 0x0000000F#32 ∧ ReservedWord 0x00010001#32 ∧
      ReservedWord 0x80000001#32 ∧ ReservedWord 0x00000012#32 ∧ ReservedWord 0x80000007#32 ∧
      (holding 0x00000012#32 1#64 2#64).cmd = 0x00000012#32 := by
  unfold ReservedWord; decide
theorem witness_DimensionFieldsHoldDimensionMinusOne :
    decode 0x00000001#32 = .instr (.matmul 1 1 1 1) ∧ decode 0x0000FFF1#32 = .instr (.matmul 8 8 8 8) := by decide
theorem witness_AssemblerGivesTheRequest :
    assemble (.matmul 1 8 8 1 5#64 6#64) = some ⟨0x00001F81#32, 5#64, 6#64⟩ ∧ assemble (.matmul 0 1 1 1 5#64 6#64) = none ∧
      assemble (.matmul 1 1 1 9 5#64 6#64) = none ∧ ([] : List Byte).length ≤ 8 ∧ (List.replicate 8 0x30#8).length ≤ 8 ∧
      8 < (List.replicate 9 0x30#8).length := by decide
theorem witness_PseudoInstructionsExpandToMatmul :
    (16#64).toNat > 15 ∧ (15#64).toNat ≤ 15 ∧ (0#64).toNat ≤ 15 ∧ (0x7F#64).toNat ≤ 0x7F := by decide
theorem witness_PackedMatrixHoldsItsElements :
    1 ≤ 8 ∧ 8 ≤ 8 ∧ (1 ≤ 1 ∧ 1 ≤ 8) ∧ (7 < 8 ∧ 0 < 1) ∧ (8 ≤ 64 / 8 ∨ 1 ≤ 64 % 8) ∧ (8 ≤ 1 / 8 ∨ 1 ≤ 1 % 8) ∧
      ∀ i q, i < 8 → q < 1 → (0xFE#64).getLsbD (8 * i + q) = (0#64).getLsbD (8 * i + q) := by
  refine ⟨by decide, by decide, by decide, by decide, by decide, by decide, fun i q hi hq => ?_⟩
  have key : ∀ i : Fin 8, ∀ q : Fin 1,
      (0xFE#64).getLsbD (8 * i.val + q.val) = (0#64).getLsbD (8 * i.val + q.val) := by decide
  exact key ⟨i, hi⟩ ⟨q, hq⟩
theorem witness_CharacterOperandsSpellCodewords :
    stringLength 0#64 = 0 ∧ stringLength 0x0031303131303130#64 = 7 ∧ stringLength 0x3030303030303030#64 = 8 ∧
      parseChars 0x0030313031313031#64 = some 0x5A#7 := by decide
theorem witness_MatmulWritesTheProduct :
    dimOk 1 = true ∧ dimOk 8 = true ∧ 8 ≠ 1 ∧ (8 ≤ 64 / 8 ∨ 1 ≤ 64 % 8) ∧ (8 ≤ 9 / 8 ∨ 1 ≤ 9 % 8) := by decide
theorem witness_DimMismatchIsMatmulWithUnequalInnerDimensions :
    ∃ t u, exec (.matmul 1 8 1 1) (holding 0x00000381#32 1#64 1#64) = .next t ∧ t.stat = 2#8 ∧
      exec (.matmul 1 8 8 1) (holding 0x00001F81#32 1#64 1#64) = .next u ∧ u.stat = 1#8 := ⟨_, _, rfl, rfl, rfl, rfl⟩
theorem witness_ProductElementIsParityOfRowAndColumn :
    dimOk 1 = true ∧ dimOk 8 = true ∧ (0 < 8 ∧ 7 < 8) ∧ 0 < 1 := by decide
/-- Two units that differ in byte 0 of OPA and in bit 1 of OPB, for row 1 and column 0 of a 2×1 by 1×1 product. -/
theorem witness_ProductRowIsXorOfSelectedRows :
    dimOk 2 = true ∧ dimOk 1 = true ∧ 1 < 2 ∧ 0 < 1 ∧
      byteOf (holding 1#32 0x0101#64 3#64).opa 1 = byteOf (holding 1#32 0x0100#64 1#64).opa 1 ∧
      ∀ k, k < 1 → (byteOf (holding 1#32 0x0101#64 3#64).opb k).getLsbD (1 - 1 - 0) =
        (byteOf (holding 1#32 0x0100#64 1#64).opb k).getLsbD (1 - 1 - 0) := by
  refine ⟨by decide, by decide, by decide, by decide, by decide, fun k hk => ?_⟩
  obtain rfl : k = 0 := by omega
  decide
theorem witness_MatmulIgnoresUnusedBits :
    ∃ t t', dimOk 1 = true ∧
      (∀ i q, i < 1 → q < 1 → (0xFFFFFFFFFFFFFFFE#64).getLsbD (8 * i + q) = (0#64).getLsbD (8 * i + q)) ∧
      exec (.matmul 1 1 1 1) { unit 1 [] with opa := 0xFFFFFFFFFFFFFFFE#64, opb := 0#64 } = .next t ∧
      exec (.matmul 1 1 1 1) { unit 1 [] with opa := 0#64, opb := 0xFFFFFFFFFFFFFFFE#64 } = .next t' := by
  refine ⟨_, _, by decide, fun i q hi hq => ?_, rfl, rfl⟩
  obtain rfl : i = 0 := by omega
  obtain rfl : q = 0 := by omega
  decide
/-- The 1×1 identity is 1. -/
theorem witness_MatmulIdentities :
    (∀ q, (holding 1#32 1#64 5#64).opa.getLsbD q = true ↔ ∃ i, i < 1 ∧ q = 8 * i + (1 - 1 - i)) ∧
      (∀ q, (0x0102040810204080#64).getLsbD q = true ↔ ∃ i, i < 8 ∧ q = 8 * i + (8 - 1 - i)) ∧
      (holding 1#32 0#64 5#64).opa = 0#64 ∧ (holding 0x7B21#32 0x172B4D#64 0x0001020408070B0D#64).opa = 0x172B4D#64 := by
  refine ⟨fun q => ?_, fun q => ?_, rfl, rfl⟩
  · have : (holding 1#32 1#64 5#64).opa.getLsbD q = decide (q = 0) := by cases q <;> simp [holding]
    rw [this, decide_eq_true_eq]
    exact ⟨fun h => ⟨0, by omega, by omega⟩, fun ⟨i, hi, h⟩ => by omega⟩
  · have key : ∀ q : Fin 64, (0x0102040810204080#64).getLsbD q.val = true ↔ ∃ i, i < 8 ∧ q.val = 8 * i + (8 - 1 - i) := by
      decide +kernel
    by_cases h : q < 64
    · exact key ⟨q, h⟩
    · rw [BitVec.getLsbD_of_ge _ _ (by omega)]
      exact ⟨fun hf => (nomatch hf), fun ⟨i, hi, hq⟩ => by omega⟩
theorem witness_EncWritesTheCodeword :
    (holding 2#32 15#64 0#64).opa.toNat ≤ 15 ∧ (holding 2#32 0#64 0#64).opa.toNat ≤ 15 := by decide
theorem witness_EncsWritesTheCharacters : (holding 3#32 15#64 7#64).opa.toNat ≤ 15 := by decide
theorem witness_OutOfRangeIsEncoderAboveFifteen :
    ∃ t u, exec .encs (holding 3#32 16#64 0#64) = .next t ∧ t.stat = 3#8 ∧
      exec .enc (holding 2#32 15#64 0#64) = .next u ∧ u.stat = 1#8 := ⟨_, _, rfl, by decide, rfl, by decide⟩
/-- `CodewordIsSystematic`, `EncoderOutputHasZeroSyndrome`, `EverySevenBitWordDecodes`, `SyndromeZeroIffSomeCodeword` and
`FortyEightTriplesAreAdmissible` ask for admissible tables alone. -/
theorem witness_two_admissible_tables :
    CodeTables.default.Admissible ∧ otherTables.Admissible ∧ CodeTables.default.grow ≠ otherTables.grow ∧
      (0b001#3 : Syndrome) ≠ 0#3 := ⟨witness_default_admissible, witness_other_admissible.1, by decide, by decide⟩
theorem witness_SyndromeIsParityCheckProduct : 0 < 3 ∧ 2 < 3 := by decide
/-- `SynReportsSyndromeAndPosition` and `CorrFlipsThePositionFound`: a codeword, and a word with a SYNTAB entry. -/
theorem witness_CorrFlipsThePositionFound :
    (holding 5#32 0x5A#64 0#64).opa = (0x5A#7).setWidth 64 ∧ CodeTables.default.syndrome 0x5A#7 = 0#3 ∧
      (holding 5#32 0x5E#64 0#64).opa = (0x5E#7).setWidth 64 ∧ CodeTables.default.syndrome 0x5E#7 ≠ 0#3 ∧
      CodeTables.default.lookup (CodeTables.default.syndrome 0x5E#7) = ⟨true, 4#3⟩ ∧ (4#3 : BitVec 3) ≠ 7#3 := by decide
/-- An entry with POS = 7 meets the hypotheses too. -/
theorem witness_CorrFlipsThePositionFound_no_position :
    tableWithNoPosition.lookup (tableWithNoPosition.syndrome 0x5E#7) = ⟨true, 7#3⟩ := by decide
theorem witness_DecAndDecsGiveTheNibble :
    (holding 6#32 0x5E#64 0#64).opa = (0x5E#7).setWidth 64 ∧
      SpellsCodeword (holding 7#32 0x0030313131313031#64 0#64).opa 0x5E#7 ∧
      (holding 7#32 0x0030313131313031#64 0#64).rom = (holding 6#32 0x5E#64 0#64).rom ∧
      (CodeTables.default.lookup (CodeTables.default.syndrome 0x5E#7)).valid = true ∧ (3 ≤ 3 ∧ 6 < 7) := by
  refine ⟨by decide, ⟨fun k hk => ?_, by decide⟩, rfl, by decide, by decide⟩
  have key : ∀ k : Fin 7, byteOf 0x0030313131313031#64 k.val = if (0x5E#7).getLsbD (6 - k.val) then 0x31#8 else 0x30#8 := by
    decide
  exact key ⟨k, hk⟩
theorem witness_MalformedIsABadCodewordOperand :
    ∃ t u v, exec .syn (holding 4#32 0x80#64 0#64) = .next t ∧ t.stat = 4#8 ∧
      exec .decs (holding 7#32 0x0030317831313031#64 0#64) = .next u ∧ u.stat = 4#8 ∧
      exec .syn (holding 4#32 0x7F#64 0#64) = .next v ∧ v.stat = 1#8 :=
  ⟨_, _, _, rfl, by decide, rfl, by decide, rfl, by decide⟩
/-- A table miss, which only inadmissible tables have. -/
theorem witness_UnmappedIsATableMiss :
    ∃ t, exec .dec { holding 6#32 0x5E#64 0#64 with rom := tableWithMiss } = .next t ∧ t.stat = 5#8 := ⟨_, rfl, by decide⟩
theorem witness_DecodingAnEncodedNibbleReturnsIt :
    CodeTables.default.Admissible ∧ (15#64).toNat ≤ 15 ∧ (0#64).toNat ≤ 15 := ⟨witness_default_admissible, by decide, by decide⟩
theorem witness_EverySingleBitErrorIsCorrected : CodeTables.default.Admissible ∧ 0 < 7 ∧ 6 < 7 :=
  ⟨witness_default_admissible, by decide, by decide⟩
theorem witness_DoubleBitErrorGivesWrongData : CodeTables.default.Admissible ∧ 0 < 7 ∧ 6 < 7 ∧ 0 ≠ 6 :=
  ⟨witness_default_admissible, by decide, by decide, by decide⟩
theorem witness_SyndromeDependsOnTheErrorOnly : otherTables.Admissible ∧ 0 < 7 ∧ 6 < 7 :=
  ⟨witness_other_admissible.1, by decide, by decide⟩
theorem witness_ExamplesLeaveTwoGenerators :
    (CodeTables.default.Admissible ∧ CodeTables.default.MeetsExamples) ∧
      (otherTables.Admissible ∧ otherTables.MeetsExamples) ∧
      CodeTables.default.grow = #v[0x68#7, 0x54#7, 0x32#7, 0x71#7] ∧ otherTables.grow = #v[0x38#7, 0x54#7, 0x62#7, 0x71#7] :=
  ⟨⟨witness_default_admissible, by decide +kernel⟩, witness_other_admissible, rfl, rfl⟩
theorem witness_ConfigureRefusesInadmissibleParameters :
    (CodeTables.default.Admissible ∧ 1 ≤ 1) ∧ ¬tableWithMiss.Admissible :=
  ⟨⟨witness_default_admissible, by decide⟩, witness_miss_inadmissible⟩
theorem witness_StepRunsTheDecodedInstruction :
    ((unit 1 [PortIn.present encTen]).accepts = true ∧ (unit 1 [PortIn.present encTen]).latency = 1 ∧
      decode (unit 1 [PortIn.present encTen]).nextInput.reqCmd = .instr .enc) ∧
    ((holding 2#32 10#64 0#64).nextInput.rst = false ∧
      ({ holding 2#32 10#64 0#64 with inFlight := some 0 } : State).inFlight = some 0 ∧
      decode (holding 2#32 10#64 0#64).cmd = .instr .enc) ∧
    decodeTableWord 32 0x00000002 = some .enc := by decide
theorem witness_OperationsWriteOnlyStatAndRes :
    ∃ t u v w x y z, exec (.matmul 1 1 1 1) (holding 1#32 1#64 1#64) = .next t ∧ exec .enc (holding 2#32 1#64 0#64) = .next u ∧
      exec .encs (holding 3#32 1#64 0#64) = .next v ∧ exec .syn (holding 4#32 1#64 0#64) = .next w ∧
      exec .corr (holding 5#32 1#64 0#64) = .next x ∧ exec .dec (holding 6#32 1#64 0#64) = .next y ∧
      exec .decs (holding 7#32 1#64 0#64) = .next z := ⟨_, _, _, _, _, _, _, rfl, rfl, rfl, rfl, rfl, rfl, rfl⟩
theorem witness_ErrorCompletionHasZeroResult :
    ∃ t, complete (holding 2#32 16#64 0#64) = .next t ∧ t.stat ≠ 1#8 := ⟨_, rfl, by decide⟩
theorem witness_OpbIsIgnoredByHammingOperations :
    (∀ m nA nB p, Instr.enc ≠ .matmul m nA nB p) ∧ ∃ t, exec .enc (holding 2#32 1#64 0#64) = .next t :=
  ⟨fun _ _ _ _ h => (nomatch h), _, rfl⟩
/-- Clause by clause: an acceptance, and a cycle with neither acceptance nor reset. -/
theorem witness_LatchesLoadAtAcceptanceOnly :
    (∃ t, step (unit 2 [PortIn.present encTen]) = .next t ∧ (unit 2 [PortIn.present encTen]).nextInput.reqValid = true ∧
      (unit 2 [PortIn.present encTen]).reqReady = true) ∧
    (∃ t, step (unit 2 []) = .next t ∧ (unit 2 []).nextInput.rst = false ∧ (unit 2 []).nextInput.reqValid = false) :=
  ⟨⟨_, rfl, rfl, rfl⟩, _, rfl, rfl, rfl⟩
/-- A request presented to a busy unit, and ports that differ without `req_valid`. -/
theorem witness_UnacceptedRequestPortsHaveNoEffect :
    ({ unit 2 [] with inFlight := some 0 } : State).busy = true ∧
      (unit 2 []).nextInput.rst = (PortIn.present encTen).rst ∧
      (unit 2 []).nextInput.reqValid = false ∧ (⟨false, false, 5#32, 6#64, 7#64⟩ : PortIn).reqValid = false := by decide

theorem noReset_present (latency n : Nat) (r : Request) : (unit latency [PortIn.present r]).NoReset n := by
  intro k _
  rcases k with _ | k <;> rfl

/-- LATENCY = 1 and LATENCY = 2 both meet the hypotheses, for `SameRequestGivesSameAnswer` too. -/
theorem witness_AcceptedRequestCompletesAfterLatency :
    (1 ≤ (unit 2 [PortIn.present encTen]).latency ∧ (unit 2 [PortIn.present encTen]).accepts = true ∧
      (unit 2 [PortIn.present encTen]).NoReset (unit 2 [PortIn.present encTen]).latency ∧ 0 < 1 ∧ 1 < 2) ∧
    (1 ≤ (unit 1 [PortIn.present encTen]).latency ∧ (unit 1 [PortIn.present encTen]).accepts = true ∧
      (unit 1 [PortIn.present encTen]).NoReset (unit 1 [PortIn.present encTen]).latency) :=
  ⟨⟨by decide, by decide, noReset_present _ _ _, by decide⟩, by decide, by decide, noReset_present _ _ _⟩
theorem witness_SameRequestGivesSameAnswer :
    (unit 1 [PortIn.present encTen]).rom = (unit 2 [PortIn.present encTen]).rom ∧
      (unit 1 [PortIn.present encTen]).nextInput.request = (unit 2 [PortIn.present encTen]).nextInput.request := ⟨rfl, rfl⟩

theorem legal_unit (latency : Nat) (inputs : List PortIn) (h : 1 ≤ latency) : (unit latency inputs).Legal where
  tables := witness_default_admissible
  latencyPos := h
  statLegal := show (0#8).toNat ≤ 6 by decide
  errorResult := fun _ => rfl
  busyBounded := fun k hk => nomatch hk
  pulse := fun hp => nomatch hp
  neverUnmapped := show (0#8) ≠ 5#8 by decide

/-- A unit in the completion cycle of ENC 10, with the next request presented. -/
def completing : State := { unit 1 [PortIn.present encTen] with stat := 1#8, res := 0x5A#64, rspValid := true }

theorem witness_ResponsePulseLastsOneCycle :
    completing.Legal ∧ ∃ t, step completing = .next t ∧ completing.rspValid = true ∧ t.rspValid = true :=
  ⟨{ tables := witness_default_admissible, latencyPos := by decide, statLegal := by unfold State.StatLegal; decide
     errorResult := fun h => absurd rfl h, busyBounded := fun k hk => nomatch hk
     pulse := fun _ => ⟨rfl, by decide⟩, neverUnmapped := by decide }, _, rfl, rfl, rfl⟩
theorem witness_ResponsesAreExecOfAcceptedRequests : (unit 3 [PortIn.present encTen]).NoReset 5 := noReset_present _ _ _
theorem witness_BackToBackRequestsAreTransactions :
    (unit 1 ([encTen, encTen].map PortIn.present)).inFlight = none ∧
      (unit 1 ([encTen, encTen].map PortIn.present)).latency = 1 ∧
      (unit 1 ([encTen, encTen].map PortIn.present)).inputs = [encTen, encTen].map PortIn.present := ⟨rfl, rfl, rfl⟩
theorem witness_ResetCycleGivesResetValues :
    ({ unit 2 [⟨true, true, 2#32, 3#64, 0#64⟩] with inFlight := some 0 } : State).nextInput.rst = true := rfl
/-- A reset in the acceptance cycle (j = 0), and in the one BUSY cycle of LATENCY = 2 (j = 1). -/
theorem witness_ResetAbandonsTheRequestInFlight :
    ((unit 2 [⟨true, true, 2#32, 10#64, 0#64⟩]).busy = false ∧
      (unit 2 [⟨true, true, 2#32, 10#64, 0#64⟩]).nextInput.reqValid = true ∧
      0 < (unit 2 [⟨true, true, 2#32, 10#64, 0#64⟩]).latency ∧ (unit 2 [⟨true, true, 2#32, 10#64, 0#64⟩]).NoReset 0 ∧
      ((unit 2 [⟨true, true, 2#32, 10#64, 0#64⟩]).inputAt 0).rst = true) ∧
    ((unit 2 [PortIn.present encTen, ⟨true, false, 0#32, 0#64, 0#64⟩]).busy = false ∧
      (unit 2 [PortIn.present encTen, ⟨true, false, 0#32, 0#64, 0#64⟩]).nextInput.reqValid = true ∧
      1 < (unit 2 [PortIn.present encTen, ⟨true, false, 0#32, 0#64, 0#64⟩]).latency ∧
      (unit 2 [PortIn.present encTen, ⟨true, false, 0#32, 0#64, 0#64⟩]).NoReset 1 ∧
      ((unit 2 [PortIn.present encTen, ⟨true, false, 0#32, 0#64, 0#64⟩]).inputAt 1).rst = true) := by
  refine ⟨⟨rfl, rfl, by decide, fun k hk => absurd hk (by omega), rfl⟩, rfl, rfl, by decide, fun k hk => ?_, rfl⟩
  obtain rfl : k = 0 := by omega
  rfl
theorem witness_ResultChangesOnlyAtCompletionOrReset :
    ∃ t, step completing.dropInput = .next t ∧ completing.dropInput.nextInput.rst = false ∧ t.rspValid = false :=
  ⟨_, rfl, rfl, rfl⟩
theorem witness_RomsNeverChange : ∃ t, runCycles 2 (unit 1 [PortIn.present encTen]) = .next t := ⟨_, rfl⟩
theorem witness_StepKeepsLegalStates :
    (unit 1 [PortIn.present encTen]).Legal ∧ ∃ t, step (unit 1 [PortIn.present encTen]) = .next t :=
  ⟨legal_unit _ _ (by decide), _, rfl⟩
theorem witness_EveryConfiguredRunStaysLegal :
    ∃ s₀ t, State.configure CodeTables.default 1 = .next s₀ ∧
      runCycles 1 { s₀ with inputs := [PortIn.present encTen] } = .next t := by
  refine ⟨State.resetWith CodeTables.default 1, ?_⟩
  refine ⟨_, ?_, rfl⟩
  simp only [State.configure, if_pos witness_default_admissible]
  rfl

end Sys2Proof.Tests
end

section
/-! SUPPORT. What `State.configure` answers, branch by branch, and the proof about it (`00_scope.md` R8). -/

namespace Sys2Proof.Machine

/-- The tables are checked first, so the refusal names them whatever LATENCY is. -/
theorem State.configure_of_not_admissible {t : CodeTables} (n : Nat) (ht : ¬t.Admissible) :
    State.configure t n = .refused .inadmissibleTables := by
  unfold State.configure
  exact if_neg ht

theorem State.configure_zero_of_admissible {t : CodeTables} (ht : t.Admissible) :
    State.configure t 0 = .refused .zeroLatency := by
  unfold State.configure
  rw [if_pos ht, if_pos rfl]

theorem State.configure_of_admissible {t : CodeTables} {n : Nat} (ht : t.Admissible) (hn : 1 ≤ n) :
    State.configure t n = .next (State.resetWith t n) := by
  have hne : n ≠ 0 := Nat.one_le_iff_ne_zero.mp hn
  unfold State.configure
  rw [if_pos ht, if_neg hne]

/-- Settles O39: the three clauses are the three branches of `State.configure`. -/
theorem configureRefusesInadmissibleParameters : Obligations.ConfigureRefusesInadmissibleParameters := by
  unfold Obligations.ConfigureRefusesInadmissibleParameters
  intro t n
  refine ⟨State.configure_of_admissible, State.configure_of_not_admissible n, ?_⟩
  rintro ht rfl
  exact State.configure_zero_of_admissible ht

end Sys2Proof.Machine
end

section
/-! SUPPORT. The tables of R33 and the tables a check matrix H determines (`10_state.md` R29-R33). -/

namespace Sys2Proof.Machine

theorem CodeTables.default_admissible : CodeTables.default.Admissible :=
  ⟨by decide, by decide +kernel, by decide +kernel⟩

theorem CodeTables.default_meetsExamples : CodeTables.default.MeetsExamples := by decide

/-- The four strings the document decodes. -/
theorem execRequest_default_decs :
    ∀ x ∈ [(0x0030313031313031#64, 0x700A#64), (0x0031313031303130#64, 0x700B#64), (0x0030313131313031#64, 0x458A#64),
         (0x0031313030303130#64, 0x368B#64)],
    execRequest CodeTables.default ⟨0x00000007#32, x.1, 0#64⟩ = ⟨.ok, x.2⟩ := by
  simp only [List.forall_mem_cons]
  exact ⟨by decide, by decide, by decide, by decide, nofun⟩

theorem CodeTables.default_columns : (List.range 7).map CodeTables.default.column =
    [0b100#3, 0b010#3, 0b001#3, 0b110#3, 0b101#3, 0b011#3, 0b111#3] := by decide

/-- Settles O36: the words and entries are those of the definition, and the other clauses are the facts above. -/
theorem defaultTablesAreAdmissible : Obligations.DefaultTablesAreAdmissible := by
  unfold Obligations.DefaultTablesAreAdmissible
  exact ⟨rfl, rfl, rfl, rfl, rfl, rfl, rfl, rfl, rfl, rfl, CodeTables.default_columns, CodeTables.default_admissible,
    CodeTables.default_meetsExamples, rfl, execRequest_default_decs⟩

/-! ### SYNTAB follows from H (R31) -/

/-- `col_j(H)` of a check matrix alone. -/
def checkColumn (h : Vector Codeword 3) (j : Nat) : Syndrome :=
  threeBits (h[0].getLsbD (6 - j)) (h[1].getLsbD (6 - j)) (h[2].getLsbD (6 - j))

theorem CodeTables.column_eq_checkColumn (t : CodeTables) (j : Nat) : t.column j = checkColumn t.hrow j := rfl

/-- The column of H at a codeword position, and the zero vector at no position. -/
def CodeTables.columnOrZero (t : CodeTables) : Option (Fin 7) → Syndrome
  | none => 0#3
  | some j => t.column j

theorem CodeTables.SyntabAgrees.columnOrZero_injective {t : CodeTables} (h : t.SyntabAgrees) :
    Function.Injective t.columnOrZero := by
  obtain ⟨hinj, hne, -⟩ := h
  rintro (_ | i) (_ | j) hij
  · rfl
  · exact absurd hij.symm (hne j)
  · exact absurd hij (hne i)
  · exact congrArg some (hinj i j hij)

/-- The seven columns of H and 000 are all eight vectors, because they are eight distinct ones. -/
theorem CodeTables.SyntabAgrees.exists_column {t : CodeTables} (h : t.SyntabAgrees) {synd : Syndrome}
    (hs : synd ≠ 0#3) : ∃ j : Fin 7, t.column j = synd := by
  have e : Option (Fin 7) ≃ Syndrome := finSuccEquivLast.symm.trans (BitVec.equivFin (m := 3)).symm.toEquiv
  obtain ⟨_ | j, hj⟩ := (h.columnOrZero_injective.surjective_of_finite e) synd
  · exact absurd hj.symm hs
  · exact ⟨j, hj⟩

/-- Two triples with the same H agree on every SYNTAB entry but that of 000, since each syndrome is a column. -/
theorem CodeTables.SyntabAgrees.lookup_eq_of_hrow_eq {t u : CodeTables} (ht : t.SyntabAgrees) (hu : u.SyntabAgrees)
    (hrow : t.hrow = u.hrow) {synd : Syndrome} (hs : synd ≠ 0#3) : t.lookup synd = u.lookup synd := by
  obtain ⟨j, rfl⟩ := ht.exists_column hs
  have hcol : t.column j = u.column j := by rw [t.column_eq_checkColumn, u.column_eq_checkColumn, hrow]
  obtain ⟨-, -, htj, -⟩ := ht
  obtain ⟨-, -, huj, -⟩ := hu
  rw [htj j, hcol, huj j]

/-- The part of R31 that speaks of H alone: column 0 is 100, and the columns are nonzero and distinct. -/
abbrev SeparatesPositions (h : Vector Codeword 3) : Prop :=
  checkColumn h 0 = 0b100#3 ∧ (∀ j : Fin 7, checkColumn h j.val ≠ 0#3) ∧
  (∀ i j : Fin 7, checkColumn h i.val = checkColumn h j.val → i = j)

/-- The SYNTAB entry that R31 asks for: the position whose column is the syndrome, or none. -/
def entryFor (h : Vector Codeword 3) (synd : Syndrome) : SynEntry :=
  match (List.finRange 7).find? fun j => checkColumn h j.val == synd with
  | some j => ⟨true, BitVec.ofNat 3 j.val⟩
  | none => ⟨false, 0#3⟩

/-- The triple with the given G and H, and the SYNTAB that R31 asks for. -/
def tablesOf (g : Vector Codeword 4) (h : Vector Codeword 3) : CodeTables :=
  ⟨g, h, Vector.ofFn fun i => entryFor h (BitVec.ofFin i)⟩

@[simp] theorem lookup_tablesOf (g : Vector Codeword 4) (h : Vector Codeword 3) (synd : Syndrome) :
    (tablesOf g h).lookup synd = entryFor h synd := by
  simp [CodeTables.lookup, tablesOf]

theorem entryFor_checkColumn {h : Vector Codeword 3} (hs : SeparatesPositions h) (j : Fin 7) :
    entryFor h (checkColumn h j.val) = ⟨true, BitVec.ofNat 3 j.val⟩ := by
  obtain ⟨-, -, hinj⟩ := hs
  have hfind : ((List.finRange 7).find? fun i => checkColumn h i.val == checkColumn h j.val) = some j := by
    have hsome := List.find?_isSome (p := fun i => checkColumn h i.val == checkColumn h j.val).2
      ⟨j, List.mem_finRange j, by simp⟩
    obtain ⟨i, hi⟩ := Option.isSome_iff_exists.1 hsome
    have hcol := List.find?_some hi
    rw [hi, hinj i j (by simpa using hcol)]
  rw [entryFor, hfind]

theorem entryFor_zero {h : Vector Codeword 3} (hs : SeparatesPositions h) : (entryFor h 0#3).valid = false := by
  obtain ⟨-, hne, -⟩ := hs
  have hfind : ((List.finRange 7).find? fun i => checkColumn h i.val == 0#3) = none := by
    simpa using hne
  rw [entryFor, hfind]

theorem tablesOf_syntabAgrees {g : Vector Codeword 4} {h : Vector Codeword 3} :
    (tablesOf g h).SyntabAgrees ↔ SeparatesPositions h := by
  constructor
  · rintro ⟨hinj, hne, -, -, h0⟩
    exact ⟨h0, hne, hinj⟩
  · intro hs
    have ⟨h0, hne, hinj⟩ := hs
    refine ⟨hinj, hne, fun j => ?_, ?_, h0⟩
    · rw [lookup_tablesOf]
      exact entryFor_checkColumn hs j
    · rw [lookup_tablesOf]
      exact entryFor_zero hs

/-- A pair (G, H) stands in an admissible triple that meets the examples exactly when it does so with the SYNTAB that
follows from H. -/
theorem exists_admissible_iff {g : Vector Codeword 4} {h : Vector Codeword 3} :
    (∃ t : CodeTables, t.Admissible ∧ t.MeetsExamples ∧ t.grow = g ∧ t.hrow = h) ↔
      (tablesOf g h).Systematic ∧ (tablesOf g h).MeetsExamples ∧ (tablesOf g h).Annihilates ∧ SeparatesPositions h := by
  constructor
  · rintro ⟨t, ⟨hsys, hann, hsyntab⟩, hex, rfl, rfl⟩
    obtain ⟨hinj, hne, -, -, h0⟩ := hsyntab
    exact ⟨hsys, hex, hann, h0, hne, hinj⟩
  · rintro ⟨hsys, hex, hann, hsep⟩
    exact ⟨tablesOf g h, ⟨hsys, hann, tablesOf_syntabAgrees.2 hsep⟩, hex, rfl, rfl⟩

/-! ### The matrices H that go with a G (R30, R31) -/

/-- The words orthogonal to every row of G: by R30 the rows of H are among them. -/
def dualWords (g : Vector Codeword 4) : List Codeword :=
  ((List.range 128).map (BitVec.ofNat 7)).filter fun w => decide (∀ k : Fin 4, parity (w &&& g[k]) = false)

theorem mem_dualWords {g : Vector Codeword 4} {w : Codeword} :
    w ∈ dualWords g ↔ ∀ k : Fin 4, parity (w &&& g[k]) = false := by
  have hall : w ∈ (List.range 128).map (BitVec.ofNat 7) :=
    List.mem_map.2 ⟨w.toNat, List.mem_range.2 w.isLt, by simp⟩
  rw [dualWords, List.mem_filter, decide_eq_true_iff]
  exact and_iff_right hall

theorem dualWords_nodup (g : Vector Codeword 4) : (dualWords g).Nodup := by
  refine List.Nodup.filter _ (List.Nodup.map_on (fun m hm n hn h => ?_) List.nodup_range)
  rw [List.mem_range] at hm hn
  simpa [Nat.mod_eq_of_lt, hm, hn] using congrArg BitVec.toNat h

/-- A 3×7 matrix from its rows. -/
def ofRows (rows : Codeword × Codeword × Codeword) : Vector Codeword 3 := #v[rows.1, rows.2.1, rows.2.2]

theorem ofRows_injective : Function.Injective ofRows := by
  rintro ⟨a, b, c⟩ ⟨a', b', c'⟩ h
  simpa [ofRows] using h

theorem ofRows_rows (h : Vector Codeword 3) : ofRows (h[0], h[1], h[2]) = h := by
  ext i hi
  match i with
  | 0 | 1 | 2 => rfl

/-- The matrices H with rows orthogonal to G and with columns as R31 asks. -/
def checkMatrices (g : Vector Codeword 4) : List (Vector Codeword 3) :=
  ((dualWords g ×ˢ dualWords g ×ˢ dualWords g).map ofRows).filter fun h => decide (SeparatesPositions h)

theorem checkMatrices_nodup (g : Vector Codeword 4) : (checkMatrices g).Nodup :=
  have hdual := dualWords_nodup g
  ((hdual.product (hdual.product hdual)).map ofRows_injective).filter _

theorem mem_checkMatrices {g : Vector Codeword 4} {h : Vector Codeword 3} :
    h ∈ checkMatrices g ↔ (tablesOf g h).Annihilates ∧ SeparatesPositions h := by
  have hrows : h ∈ (dualWords g ×ˢ dualWords g ×ˢ dualWords g).map ofRows ↔ (tablesOf g h).Annihilates := by
    calc h ∈ (dualWords g ×ˢ dualWords g ×ˢ dualWords g).map ofRows
      _ ↔ (h[0], h[1], h[2]) ∈ dualWords g ×ˢ dualWords g ×ˢ dualWords g := by
        conv_lhs => rw [← ofRows_rows h]
        exact List.mem_map_of_injective ofRows_injective
      _ ↔ ∀ i : Fin 3, h[i] ∈ dualWords g := by
        simp [List.mem_product, Fin.forall_fin_succ]
      _ ↔ (tablesOf g h).Annihilates := forall_congr' fun i => mem_dualWords
  rw [checkMatrices, List.mem_filter, decide_eq_true_iff, hrows]

/-- `G_B` of R32. -/
def generatorB : Vector Codeword 4 := #v[0x68#7, 0x54#7, 0x32#7, 0x71#7]

/-- `G_A` of R32. -/
def generatorA : Vector Codeword 4 := #v[0x38#7, 0x54#7, 0x62#7, 0x71#7]

theorem dualWords_generatorB :
    dualWords generatorB = [0x00#7, 0x17#7, 0x2B#7, 0x3C#7, 0x4D#7, 0x5A#7, 0x66#7, 0x71#7] := by decide +kernel

theorem dualWords_generatorA :
    dualWords generatorA = [0x00#7, 0x1D#7, 0x2B#7, 0x36#7, 0x47#7, 0x5A#7, 0x6C#7, 0x71#7] := by decide +kernel

theorem length_checkMatrices_generatorB : (checkMatrices generatorB).length = 24 := by
  rw [checkMatrices, dualWords_generatorB]
  decide +kernel

theorem length_checkMatrices_generatorA : (checkMatrices generatorA).length = 24 := by
  rw [checkMatrices, dualWords_generatorA]
  decide +kernel

/-- An admissible triple with `G_A`, with the columns 100, 001, 010 in positions 0, 1, 2 of H. -/
def tablesA : CodeTables := tablesOf generatorA #v[0x47#7, 0x1D#7, 0x2B#7]

theorem tablesA_admissible : tablesA.Admissible :=
  ⟨by decide, by decide +kernel, tablesOf_syntabAgrees.2 (by decide +kernel)⟩

theorem tablesA_meetsExamples : tablesA.MeetsExamples := by decide

/-- Beside the G of an admissible triple that meets the examples, the matrices H of R32 are those of `checkMatrices`. -/
theorem mem_checkMatrices_iff_exists_admissible {t : CodeTables} (ht : t.Admissible) (hex : t.MeetsExamples)
    {g : Vector Codeword 4} (hg : t.grow = g) (h : Vector Codeword 3) :
    h ∈ checkMatrices g ↔ ∃ u : CodeTables, u.Admissible ∧ u.MeetsExamples ∧ u.grow = g ∧ u.hrow = h := by
  subst hg
  obtain ⟨hsys, -, -⟩ := ht
  rw [exists_admissible_iff, mem_checkMatrices]
  exact ⟨fun hh => ⟨hsys, hex, hh⟩, fun ⟨_, _, hh⟩ => hh⟩

end Sys2Proof.Machine
end

section
/-! SUPPORT. The minimum distance of the code is 3, which leaves the parity parts of G's rows four values (`10_state.md`
R29-R32). -/

namespace Sys2Proof.Machine

theorem parity_and_positionMask (w : Codeword) (p : Fin 7) :
    parity (w &&& positionMask p.val) = w.getLsbD (6 - p.val) := by
  fin_cases p <;> simp [parity, xorBelow, positionMask]

/-- The syndrome of a single position is its column of H. -/
theorem CodeTables.syndrome_positionMask (t : CodeTables) (p : Fin 7) :
    t.syndrome (positionMask p.val) = t.column p.val := by
  simp only [CodeTables.syndrome, CodeTables.column, parity_and_positionMask]

theorem CodeTables.Annihilates.syndrome_row {t : CodeTables} (h : t.Annihilates) (k : Fin 4) :
    t.syndrome t.grow[k] = 0#3 := by
  have h0 : parity (t.hrow[0] &&& t.grow[k]) = false := h 0 k
  have h1 : parity (t.hrow[1] &&& t.grow[k]) = false := h 1 k
  have h2 : parity (t.hrow[2] &&& t.grow[k]) = false := h 2 k
  rw [CodeTables.syndrome, h0, h1, h2]
  rfl

/-- No word of weight 1 has syndrome 0: the columns of H are nonzero. -/
theorem CodeTables.SyntabAgrees.ne_positionMask {t : CodeTables} (h : t.SyntabAgrees) {w : Codeword}
    (hw : t.syndrome w = 0#3) (p : Fin 7) : w ≠ positionMask p.val := by
  rintro rfl
  obtain ⟨-, hne, -⟩ := h
  exact hne p (t.syndrome_positionMask p ▸ hw)

/-- No word of weight 2 has syndrome 0: the columns of H are distinct. -/
theorem CodeTables.SyntabAgrees.ne_two_positions {t : CodeTables} (h : t.SyntabAgrees) {w : Codeword}
    (hw : t.syndrome w = 0#3) {p q : Fin 7} (hpq : p ≠ q) : w ≠ positionMask p.val ^^^ positionMask q.val := by
  rintro rfl
  obtain ⟨hinj, -⟩ := h
  rw [t.syndrome_xor, t.syndrome_positionMask, t.syndrome_positionMask, BitVec.xor_eq_zero_iff] at hw
  exact hpq (hinj p q hw)

/-- The parity part of row `k` of G, columns 0..2. -/
def CodeTables.parityPart (t : CodeTables) (k : Fin 4) : BitVec 3 := t.grow[k].extractLsb' 4 3

/-- The row of a systematic G with the given parity part. -/
def systematicRow (a : BitVec 3) (k : Fin 4) : Codeword := a ++ 1#4 <<< (3 - k.val)

theorem CodeTables.Systematic.row_eq {t : CodeTables} (h : t.Systematic) (k : Fin 4) :
    t.grow[k] = systematicRow (t.parityPart k) k := by
  have hsplit : t.grow[k].extractLsb' 4 3 ++ t.grow[k].extractLsb' 0 4 = t.grow[k] :=
    (BitVec.extractLsb'_append_extractLsb'_eq_extractLsb' rfl).trans BitVec.extractLsb'_eq_self
  rw [systematicRow, ← h k]
  exact hsplit.symm

/-- The vectors of weight 2 or 3: what the parity parts of G's rows are. -/
def heavyVectors : List (BitVec 3) := [0b110#3, 0b101#3, 0b011#3, 0b111#3]

/-- A systematic row whose parity part has weight 0 or 1 has weight 1 or 2. -/
theorem systematicRow_light : ∀ (a : BitVec 3) (k : Fin 4), a ∉ heavyVectors →
    (∃ p : Fin 7, systematicRow a k = positionMask p.val) ∨
      ∃ p q : Fin 7, p ≠ q ∧ systematicRow a k = positionMask p.val ^^^ positionMask q.val := by decide +kernel

theorem systematicRow_xor_systematicRow : ∀ (a : BitVec 3) (j k : Fin 4), j ≠ k →
      ∃ p q : Fin 7, p ≠ q ∧ systematicRow a j ^^^ systematicRow a k = positionMask p.val ^^^ positionMask q.val := by
  decide +kernel

theorem CodeTables.Admissible.parityPart_mem {t : CodeTables} (ht : t.Admissible) (k : Fin 4) :
    t.parityPart k ∈ heavyVectors := by
  obtain ⟨hsys, hann, hsyntab⟩ := ht
  have hsynd := hann.syndrome_row k
  by_contra hlight
  obtain ⟨p, hp⟩ | ⟨p, q, hpq, h⟩ := systematicRow_light _ k hlight
  · exact hsyntab.ne_positionMask hsynd p ((hsys.row_eq k).trans hp)
  · exact hsyntab.ne_two_positions hsynd hpq ((hsys.row_eq k).trans h)

theorem CodeTables.Admissible.parityPart_injective {t : CodeTables} (ht : t.Admissible) :
    Function.Injective t.parityPart := by
  obtain ⟨hsys, hann, hsyntab⟩ := ht
  intro j k hjk
  by_contra hne
  have hsynd : t.syndrome (t.grow[j] ^^^ t.grow[k]) = 0#3 := by
    rw [t.syndrome_xor, hann.syndrome_row, hann.syndrome_row, BitVec.xor_self]
  obtain ⟨p, q, hpq, h⟩ := systematicRow_xor_systematicRow (t.parityPart j) j k hne
  refine hsyntab.ne_two_positions hsynd hpq ?_
  rw [hsys.row_eq j, hsys.row_eq k, ← hjk, h]

theorem CodeTables.codeword_ten (t : CodeTables) : t.codeword 10#4 = t.grow[0] ^^^ t.grow[2] := by
  simp [CodeTables.codeword, List.finRange]

theorem CodeTables.codeword_eleven (t : CodeTables) : t.codeword 11#4 = t.grow[0] ^^^ t.grow[2] ^^^ t.grow[3] := by
  simp [CodeTables.codeword, List.finRange]

/-- With the examples, the parity part of row 3 is 111 and those of rows 0 and 2 add up to 101, which leaves 101 for
row 1 and an exchange of 110 and 011 between rows 0 and 2. -/
theorem rows_of_examples : ∀ a ∈ heavyVectors, ∀ b ∈ heavyVectors, ∀ c ∈ heavyVectors, ∀ d ∈ heavyVectors,
    a ≠ b → b ≠ c → b ≠ d → systematicRow a 0 ^^^ systematicRow c 2 = 0b1011010#7 →
    systematicRow a 0 ^^^ systematicRow c 2 ^^^ systematicRow d 3 = 0b0101011#7 →
    #v[systematicRow a 0, systematicRow b 1, systematicRow c 2, systematicRow d 3] = generatorB ∨
    #v[systematicRow a 0, systematicRow b 1, systematicRow c 2, systematicRow d 3] = generatorA := by decide +kernel

theorem CodeTables.Systematic.grow_eq {t : CodeTables} (h : t.Systematic) :
    t.grow = #v[systematicRow (t.parityPart 0) 0, systematicRow (t.parityPart 1) 1, systematicRow (t.parityPart 2) 2,
      systematicRow (t.parityPart 3) 3] := by
  simp only [← h.row_eq]
  ext i hi
  match i with
  | 0 | 1 | 2 | 3 => rfl

theorem CodeTables.Admissible.grow_of_meetsExamples {t : CodeTables} (ht : t.Admissible) (hex : t.MeetsExamples) :
    t.grow = generatorB ∨ t.grow = generatorA := by
  have ⟨hsys, _, _⟩ := ht
  have hinj := ht.parityPart_injective
  obtain ⟨h10, h11⟩ := hex
  rw [t.codeword_ten, hsys.grow_eq] at h10
  rw [t.codeword_eleven, hsys.grow_eq] at h11
  rw [hsys.grow_eq]
  exact rows_of_examples _ (ht.parityPart_mem 0) _ (ht.parityPart_mem 1) _ (ht.parityPart_mem 2) _ (ht.parityPart_mem 3)
    (hinj.ne (by decide)) (hinj.ne (by decide)) (hinj.ne (by decide)) h10 h11

/-- Settles O37: the minimum distance leaves no other generator, and a triple with each one is at hand. -/
theorem examplesLeaveTwoGenerators : Obligations.ExamplesLeaveTwoGenerators := by
  unfold Obligations.ExamplesLeaveTwoGenerators
  intro g
  constructor
  · rintro ⟨t, ht, hex, rfl⟩
    exact ht.grow_of_meetsExamples hex
  · rintro (rfl | rfl)
    · exact ⟨CodeTables.default, CodeTables.default_admissible, CodeTables.default_meetsExamples, rfl⟩
    · exact ⟨tablesA, tablesA_admissible, tablesA_meetsExamples, rfl⟩

/-- Settles O38: SYNTAB follows from H by its columns, and the matrices H beside each generator are listed. -/
theorem fortyEightTriplesAreAdmissible : Obligations.FortyEightTriplesAreAdmissible := by
  unfold Obligations.FortyEightTriplesAreAdmissible
  constructor
  · intro t u ht hu hrow synd hs
    obtain ⟨-, -, hsyntab⟩ := ht
    obtain ⟨-, -, hsyntab'⟩ := hu
    exact hsyntab.lookup_eq_of_hrow_eq hsyntab' hrow hs
  · intro g hg
    have hcases : g = generatorB ∨ g = generatorA := hg
    obtain rfl | rfl := hcases
    · exact ⟨checkMatrices generatorB, checkMatrices_nodup _, length_checkMatrices_generatorB,
        mem_checkMatrices_iff_exists_admissible CodeTables.default_admissible CodeTables.default_meetsExamples rfl⟩
    · exact ⟨checkMatrices generatorA, checkMatrices_nodup _, length_checkMatrices_generatorA,
        mem_checkMatrices_iff_exists_admissible tablesA_admissible tablesA_meetsExamples rfl⟩

end Sys2Proof.Machine
end

section
/-! SUPPORT. With admissible tables the lookup never misses, so a completed request is legal (`10_state.md` R31,
`60_exceptions.md` R141, R143, R147). -/

namespace Sys2Proof.Machine

/-- A lookup of a nonzero syndrome finds the position of its column (R31). -/
theorem CodeTables.SyntabAgrees.lookup_valid {t : CodeTables} (h : t.SyntabAgrees) {synd : Syndrome} (hs : synd ≠ 0#3) :
    (t.lookup synd).valid = true := by
  obtain ⟨j, rfl⟩ := h.exists_column hs
  obtain ⟨-, -, hlookup, -⟩ := h
  rw [hlookup j]

theorem CodeTables.SyntabAgrees.exists_locateError {t : CodeTables} (h : t.SyntabAgrees) (r : Codeword) :
    ∃ e, locateError t r = some e := by
  by_cases hs : t.syndrome r = 0#3
  · exact ⟨_, locateError_of_zero hs⟩
  · exact ⟨_, locateError_of_hit hs (h.lookup_valid hs)⟩

/-- A completion the unit may show: a request has completed, its status is not UNMAPPED_SYNDROME, and an error has
RES = 0 (R141, R143, R147). -/
structure Completion.Legal (c : Completion) : Prop where
  notNone : c.status ≠ .none
  notUnmapped : c.status ≠ .unmappedSyndrome
  errorResult : c.status ≠ .ok → c.res = 0#64

theorem Completion.legal_ok (v : Operand) : (Completion.ok v).Legal where
  notNone := nofun
  notUnmapped := nofun
  errorResult h := absurd rfl h

theorem Completion.legal_error {e : Status} (hn : e ≠ .none) (hu : e ≠ .unmappedSyndrome) :
    (Completion.error e).Legal where
  notNone := hn
  notUnmapped := hu
  errorResult _ := rfl

theorem matmulResult_legal (m nA nB p : Nat) (a b : Operand) : (matmulResult m nA nB p a b).Legal := by
  unfold matmulResult
  split
  · exact Completion.legal_ok _
  · exact Completion.legal_error nofun nofun

theorem encodeWith_legal (form : Codeword → Operand) (t : CodeTables) (v : Operand) : (encodeWith form t v).Legal := by
  unfold encodeWith
  split
  · exact Completion.legal_error nofun nofun
  · exact Completion.legal_ok _

/-- The one place where the tables matter: with admissible ones the lookup does not miss. -/
theorem decodeWith_legal {t : CodeTables} (ht : t.Admissible) (payload : Codeword → ErrorInfo → Codeword)
    (parsed : Option Codeword) : (decodeWith payload t parsed).Legal := by
  cases parsed with
  | none => exact Completion.legal_error nofun nofun
  | some r =>
    obtain ⟨-, -, hsyntab⟩ := ht
    obtain ⟨e, he⟩ := hsyntab.exists_locateError r
    simp only [decodeWith, he]
    exact Completion.legal_ok _

theorem perform_legal {t : CodeTables} (ht : t.Admissible) (i : Instr) (a b : Operand) : (perform t i a b).Legal := by
  cases i with
  | matmul m nA nB p => exact matmulResult_legal m nA nB p a b
  | enc => exact encodeWith_legal _ t a
  | encs => exact encodeWith_legal _ t a
  | syn => exact decodeWith_legal ht _ _
  | corr => exact decodeWith_legal ht _ _
  | dec => exact decodeWith_legal ht _ _
  | decs => exact decodeWith_legal ht _ _

theorem execRequest_legal {t : CodeTables} (ht : t.Admissible) (r : Request) : (execRequest t r).Legal := by
  unfold execRequest
  split
  · exact perform_legal ht _ _ _
  · exact Completion.legal_error nofun nofun

end Sys2Proof.Machine
end

section
/-! SUPPORT. The invariant of the legal states: the state after reset has it, and every step keeps it (`10_state.md`
R35-R37, `60_exceptions.md` R141, R143, R147, `70_reset_and_hazards.md` R163). -/

namespace Sys2Proof.Machine

theorem Status.code_toNat_le (c : Status) : c.code.toNat ≤ 6 := by
  cases c <;> decide

@[simp] theorem Status.ofCode?_code (c : Status) : Status.ofCode? c.code = some c := by
  cases c <;> rfl

theorem Status.code_injective : Function.Injective Status.code := fun c d h =>
  Option.some.inj (by rw [← c.ofCode?_code, h, d.ofCode?_code])

/-- The registers at their reset values are legal, whatever the latches hold (R37). -/
theorem State.legal_of_reset_values {s : State} (ht : s.rom.Admissible) (hl : 1 ≤ s.latency) (hres : s.res = 0#64)
    (hstat : s.stat = 0#8) (hbusy : s.inFlight = none) (hrsp : s.rspValid = false) : s.Legal where
  tables := ht
  latencyPos := hl
  statLegal := by simp [State.StatLegal, hstat]
  errorResult _ := hres
  busyBounded k hk := by simp [hbusy] at hk
  pulse h := by simp [hrsp] at h
  neverUnmapped := by simp [hstat, Status.code]

/-- An edge that writes neither STAT nor RES and shows no response keeps a state legal if BUSY is bounded after it. -/
theorem State.Legal.of_no_response {s t : State} (hs : s.Legal) (hrom : t.rom = s.rom) (hlat : t.latency = s.latency)
    (hstat : t.stat = s.stat) (hres : t.res = s.res) (hrsp : t.rspValid = false) (hbusy : t.BusyBounded) : t.Legal where
  tables := hrom ▸ hs.tables
  latencyPos := hlat ▸ hs.latencyPos
  statLegal := by simpa [State.StatLegal, hstat] using hs.statLegal
  errorResult := by simpa [State.ErrorResultZero, hstat, hres] using hs.errorResult
  busyBounded := hbusy
  pulse h := by simp [hrsp] at h
  neverUnmapped := hstat ▸ hs.neverUnmapped

/-- The completion edge needs only the parameters and a legal completion. -/
theorem State.legal_finishWith {s : State} (ht : s.rom.Admissible) (hl : 1 ≤ s.latency) {c : Completion}
    (hc : c.Legal) : (s.finishWith c).Legal where
  tables := ht
  latencyPos := hl
  statLegal := c.status.code_toNat_le
  errorResult h := hc.errorResult fun hok => h (congrArg Status.code hok)
  busyBounded _ hk := nomatch hk
  pulse _ := ⟨rfl, Status.code_injective.ne hc.notNone⟩
  neverUnmapped := Status.code_injective.ne hc.notUnmapped

/-- Settles O56, branch by branch of a step: a reset gives the reset values, the two completion edges give a legal
completion, and a BUSY cycle, an acceptance without completion and an idle cycle write neither STAT nor RES. -/
theorem stepKeepsLegalStates : Obligations.StepKeepsLegalStates := by
  unfold Obligations.StepKeepsLegalStates
  intro s t hs h
  obtain ⟨-, rfl⟩ | ⟨k, -, hk, rfl⟩ | ⟨-, -, rfl⟩ | ⟨-, -, rfl⟩ | ⟨-, hl, rfl⟩ | ⟨-, hk, -, rfl⟩ := step_cases h
  · exact State.legal_of_reset_values hs.tables hs.latencyPos rfl rfl rfl rfl
  · refine hs.of_no_response rfl rfl rfl rfl rfl fun j hj => ?_
    cases hj
    exact (Nat.le_succ (k + 2)).trans (hs.busyBounded _ hk)
  · exact State.legal_finishWith (s := s.dropInput) hs.tables hs.latencyPos (execRequest_legal hs.tables _)
  · exact State.legal_finishWith (s := s.dropInput.accept _) hs.tables hs.latencyPos (execRequest_legal hs.tables _)
  · refine hs.of_no_response rfl rfl rfl rfl rfl fun j hj => ?_
    cases hj
    exact (Nat.sub_add_cancel hl).le
  · exact hs.of_no_response rfl rfl rfl rfl rfl hs.busyBounded

theorem State.resetWith_legal {t : CodeTables} (ht : t.Admissible) {n : Nat} (hn : 1 ≤ n) :
    (State.resetWith t n).Legal :=
  State.legal_of_reset_values ht hn rfl rfl rfl rfl

/-- Settles O57: the default tables are admissible, and LATENCY is a successor, whatever its value. -/
theorem resetStateIsLegal : Obligations.ResetStateIsLegal := by
  unfold Obligations.ResetStateIsLegal
  exact State.resetWith_legal CodeTables.default_admissible (Nat.le_add_left 1 Config.latencyPred)

end Sys2Proof.Machine
end

section
/-! SUPPORT. Runs of the machine, what every run keeps, and when the latches load (`10_state.md` R21, R34). -/

namespace Sys2Proof.Machine

/-- Every state has a next state: each branch of `step` answers one. -/
theorem exists_step_eq_next (s : State) : ∃ t, step s = .next t := by
  cases hr : s.nextInput.rst with
  | true => exact ⟨_, step_of_rst hr⟩
  | false =>
    match hk : s.inFlight with
    | some (k + 1) => exact ⟨_, step_of_waiting hr hk⟩
    | some 0 => exact ⟨_, (step_of_last hr hk).trans (complete_eq_finish _)⟩
    | none =>
      cases hv : s.nextInput.reqValid with
      | false => exact ⟨_, step_of_idle hr hk hv⟩
      | true =>
        rw [step_of_request hr hk hv, acceptCycle]
        split
        · exact ⟨_, complete_eq_finish _⟩
        · exact ⟨_, rfl⟩

@[simp] theorem runCycles_zero (s : State) : runCycles 0 s = .next s := rfl

theorem runCycles_succ_of_step {s t : State} (h : step s = .next t) (n : Nat) :
    runCycles (n + 1) s = runCycles n t := by
  have hcore : Sys2Proof.core.step s = .next t := h
  simp only [runCycles, Host.Core.run, hcore]
  rfl

/-- A run of one cycle more ends with the step of the state the shorter run ends in. -/
theorem runCycles_succ_of_run {n : Nat} {s t : State} (h : runCycles n s = .next t) : runCycles (n + 1) s = step t := by
  induction n generalizing s with
  | zero =>
    obtain ⟨u, hu⟩ := exists_step_eq_next s
    cases h
    rw [runCycles_succ_of_step hu, hu, runCycles_zero]
  | succ n ih =>
    obtain ⟨u, hu⟩ := exists_step_eq_next s
    rw [runCycles_succ_of_step hu] at h ⊢
    exact ih h

/-- What every step keeps, every run keeps. -/
theorem runCycles_keeps {P : State → Prop} (hstep : ∀ s t, P s → step s = .next t → P t) {n : Nat} {s t : State}
    (hs : P s) (h : runCycles n s = .next t) : P t := by
  induction n generalizing s with
  | zero => cases h; exact hs
  | succ n ih =>
    obtain ⟨u, hu⟩ := exists_step_eq_next s
    rw [runCycles_succ_of_step hu] at h
    exact ih (hstep s u hs hu) h

/-- No branch of a step writes the ROMs or the parameter (R34, R168). -/
theorem step_keeps_parameters {s t : State} (h : step s = .next t) : t.rom = s.rom ∧ t.latency = s.latency := by
  obtain ⟨-, rfl⟩ | ⟨k, -, -, rfl⟩ | ⟨-, -, rfl⟩ | ⟨-, -, rfl⟩ | ⟨-, -, rfl⟩ | ⟨-, -, -, rfl⟩ := step_cases h <;>
    exact ⟨rfl, rfl⟩

/-- Settles O55: no step changes the two, so no run does. -/
theorem romsNeverChange : Obligations.RomsNeverChange := by
  unfold Obligations.RomsNeverChange
  intro n s t h
  refine runCycles_keeps (P := fun u => u.rom = s.rom ∧ u.latency = s.latency) (fun u v hu hv => ?_) ⟨rfl, rfl⟩ h
  obtain ⟨hrom, hlatency⟩ := step_keeps_parameters hv
  exact ⟨hrom.trans hu.1, hlatency.trans hu.2⟩

/-! ### Acceptance and the latches (R21) -/

/-- A request is accepted exactly when it is presented to a unit that is not BUSY, without reset (R21, R36). -/
theorem State.accepts_iff (s : State) :
    s.accepts = true ↔ s.nextInput.reqValid = true ∧ s.nextInput.rst = false ∧ s.inFlight = none := by
  simp [State.accepts, State.reqReady, State.busy, and_comm]

theorem step_of_accepts {s : State} (h : s.accepts = true) :
    step s = acceptCycle s.nextInput.request s.dropInput := by
  obtain ⟨hv, hr, hk⟩ := s.accepts_iff.1 h
  exact step_of_request hr hk hv

/-- An acceptance loads the latches, whether or not it also completes the request. -/
theorem step_latched_of_accepts {s t : State} (h : step s = .next t) (ha : s.accepts = true) :
    t.latched = s.nextInput.request := by
  rw [step_of_accepts ha, acceptCycle] at h
  split at h
  · rw [complete_eq_finish] at h
    cases h
    rfl
  · cases h
    rfl

/-- Without acceptance and reset a step counts down, completes or idles, and none of these loads the latches
(log entry 11). -/
theorem step_latched_of_not_accepts {s t : State} (h : step s = .next t) (hr : s.nextInput.rst = false)
    (ha : ¬s.accepts = true) : t.latched = s.latched := by
  obtain ⟨hrst, -⟩ | ⟨k, -, -, rfl⟩ | ⟨-, -, rfl⟩ | ⟨hacc, -⟩ | ⟨hacc, -⟩ | ⟨-, -, -, rfl⟩ := step_cases h
  · exact absurd hrst (by simp [hr])
  · rfl
  · rfl
  · exact absurd hacc ha
  · exact absurd hacc ha
  · rfl

/-- Settles O45: the ports are the fields they show, and the latches follow the two lemmas above. -/
theorem latchesLoadAtAcceptanceOnly : Obligations.LatchesLoadAtAcceptanceOnly := by
  unfold Obligations.LatchesLoadAtAcceptanceOnly
  intro s t h
  have haccepts : s.accepts = true ↔ s.nextInput.reqValid = true ∧ s.reqReady = true := by simp [State.accepts]
  refine ⟨rfl, fun hv hready => ?_, fun hr hnot => step_latched_of_not_accepts h hr (haccepts.not.2 hnot)⟩
  have hlatched := step_latched_of_accepts h (haccepts.2 ⟨hv, hready⟩)
  exact ⟨congrArg Request.cmd hlatched, congrArg Request.opa hlatched, congrArg Request.opb hlatched⟩

end Sys2Proof.Machine
end

section
/-! SUPPORT. The cycles of one accepted request, from its acceptance to its completion (`10_state.md` R22,
`70_reset_and_hazards.md` R163). -/

namespace Sys2Proof.Machine

/-- What holds `n` cycles after the unit in `s` accepted a request, while `k` more BUSY cycles are to come: the request
is latched, no response shows, STAT, RES and the ROMs are those of `s`, and `n` of the host's inputs are used up. -/
structure State.BusyAfter (s : State) (n k : Nat) (u : State) : Prop where
  inFlight : u.inFlight = some k
  rspValid : u.rspValid = false
  stat : u.stat = s.stat
  res : u.res = s.res
  rom : u.rom = s.rom
  latched : u.latched = s.nextInput.request
  inputs : u.inputs = s.inputs.drop n

theorem State.BusyAfter.nextInput {s u : State} {n k : Nat} (h : s.BusyAfter n k u) : u.nextInput = s.inputAt n := by
  simp [State.inputAt, State.nextInput, h.inputs, List.headD_eq_head?_getD, List.head?_drop]

/-- With LATENCY > 1 the acceptance edge begins LATENCY - 1 BUSY cycles. -/
theorem busyAfter_one {s : State} (ha : s.accepts = true) (hl : 2 ≤ s.latency) :
    ∃ u, step s = .next u ∧ s.BusyAfter 1 (s.latency - 2) u := by
  have hl' : ¬s.dropInput.latency ≤ 1 := by simp; omega
  rw [step_of_accepts ha, acceptCycle, if_neg hl']
  exact ⟨_, rfl, rfl, rfl, rfl, rfl, rfl, rfl, List.drop_one.symm⟩

/-- A BUSY cycle without reset, not the last, counts down and keeps the rest. -/
theorem State.BusyAfter.countDown {s u : State} {n k : Nat} (h : s.BusyAfter n (k + 1) u)
    (hr : (s.inputAt n).rst = false) : ∃ v, step u = .next v ∧ s.BusyAfter (n + 1) k v := by
  refine ⟨_, step_of_waiting (h.nextInput ▸ hr) h.inFlight, rfl, rfl, h.stat, h.res, h.rom, h.latched, ?_⟩
  simp [h.inputs]

/-- Every cycle between acceptance and completion is a BUSY cycle of the accepted request. -/
theorem exists_run_busyAfter {s : State} (ha : s.accepts = true) (hnr : s.NoReset s.latency) (n : Nat)
    (hn : n + 1 < s.latency) : ∃ u, runCycles (n + 1) s = .next u ∧ s.BusyAfter (n + 1) (s.latency - 2 - n) u := by
  induction n with
  | zero =>
    obtain ⟨u, hu, hbusy⟩ := busyAfter_one ha hn
    exact ⟨u, runCycles_succ_of_step hu 0, hbusy⟩
  | succ n ih =>
    obtain ⟨u, hrun, hbusy⟩ := ih (by omega)
    rw [show s.latency - 2 - n = s.latency - 2 - (n + 1) + 1 by omega] at hbusy
    obtain ⟨v, hv, hbusy'⟩ := hbusy.countDown (hnr (n + 1) (by omega))
    exact ⟨v, (runCycles_succ_of_run hrun).trans hv, hbusy'⟩

/-- In the completion cycle the unit shows what Exec gives for the accepted request, for LATENCY = 1 at the acceptance
edge itself, else at the edge that ends the last BUSY cycle. -/
theorem exists_run_finish {s : State} (hl : 1 ≤ s.latency) (ha : s.accepts = true) (hnr : s.NoReset s.latency) :
    ∃ u : State, runCycles s.latency s = .next (u.finishWith (execRequest s.rom s.nextInput.request)) := by
  obtain hone | ⟨m, hm⟩ : s.latency = 1 ∨ ∃ m, s.latency = m + 2 := by
    rcases hl.eq_or_lt with h | h
    · exact .inl h.symm
    · exact .inr ⟨s.latency - 2, by omega⟩
  · refine ⟨s.dropInput.accept s.nextInput.request, ?_⟩
    have hstep := step_of_accepts ha
    rw [acceptCycle, if_pos (by simp [hone]), complete_eq_finish] at hstep
    rw [hone]
    exact runCycles_succ_of_step hstep 0
  · obtain ⟨u, hrun, hbusy⟩ := exists_run_busyAfter ha hnr m (by omega)
    rw [show s.latency - 2 - m = 0 by omega] at hbusy
    have hr : u.nextInput.rst = false := hbusy.nextInput ▸ hnr (m + 1) (by omega)
    refine ⟨u.dropInput, ?_⟩
    rw [hm, runCycles_succ_of_run hrun, step_of_last hr hbusy.inFlight, complete_eq_finish, ← hbusy.latched,
      ← hbusy.rom]
    rfl

/-- Settles O47: the BUSY cycles by `exists_run_busyAfter`, the completion cycle by `exists_run_finish`. -/
theorem acceptedRequestCompletesAfterLatency : Obligations.AcceptedRequestCompletesAfterLatency := by
  unfold Obligations.AcceptedRequestCompletesAfterLatency
  intro s hl ha hnr
  constructor
  · intro k hk0 hk
    obtain ⟨n, rfl⟩ : ∃ n, k = n + 1 := ⟨k - 1, by omega⟩
    obtain ⟨u, hrun, hbusy⟩ := exists_run_busyAfter ha hnr n (by omega)
    have hbusy1 : u.busy = true := by simp [State.busy, hbusy.inFlight]
    exact ⟨u, hrun, hbusy1, by simp [State.reqReady, hbusy1], hbusy.rspValid, hbusy.stat, hbusy.res, hbusy.latched⟩
  · obtain ⟨u, hrun⟩ := exists_run_finish hl ha hnr
    exact ⟨_, hrun, rfl, rfl, rfl, rfl⟩

/-- Settles O48: both completion cycles show Exec of the one request under the one triple of tables. -/
theorem sameRequestGivesSameAnswer : Obligations.SameRequestGivesSameAnswer := by
  unfold Obligations.SameRequestGivesSameAnswer
  intro s u hrom hreq hls hlu has hau hns hnu
  obtain ⟨s', hs⟩ := exists_run_finish hls has hns
  obtain ⟨u', hu⟩ := exists_run_finish hlu hau hnu
  rw [← hrom, ← hreq] at hu
  exact ⟨_, _, hs, hu, rfl, rfl, rfl, rfl⟩

end Sys2Proof.Machine
end

section
/-! SUPPORT. Packed matrices bit by bit, and the proof that they hold their elements (`20_memory.md` R52, R53). -/

namespace Sys2Proof.Machine

/-- Bit `q` of byte `k` is bit `8k + q` of the operand (R52). -/
theorem getLsbD_byteOf (x : Operand) (k q : Nat) : (byteOf x k).getLsbD q = (decide (q < 8) && x.getLsbD (8 * k + q)) :=
  BitVec.getLsbD_extractLsb' ..

/-- Bit `q` of row `i` of a packed matrix is the element `q` places from the row's right end (R53). -/
theorem getLsbD_packMatrix_of_lt {r c i q : Nat} (elem : Nat → Nat → Bool) (hr : r ≤ 8) (hc : c ≤ 8) (hi : i < r)
    (hq : q < c) : (packMatrix r c elem).getLsbD (8 * i + q) = elem i (c - 1 - q) := by
  have hrow : (8 * i + q) / 8 = i := by omega
  have hbit : (8 * i + q) % 8 = q := by omega
  have hin : 8 * i + q < 64 := by omega
  rw [getLsbD_packMatrix, hrow, hbit]
  simp [hin, hi, hq]

/-- A bit outside the `r` × `c` region of a packed matrix is 0 (R53). -/
theorem getLsbD_packMatrix_of_outside {r c b : Nat} (elem : Nat → Nat → Bool) (h : r ≤ b / 8 ∨ c ≤ b % 8) :
    (packMatrix r c elem).getLsbD b = false := by
  rw [getLsbD_packMatrix]
  rcases h with hrow | hcol
  · simp [Nat.not_lt.2 hrow]
  · simp [Nat.not_lt.2 hcol]

/-- Reading element `(i,j)` of a packed matrix gives the element written there (R53). -/
theorem matrixElem_packMatrix {r c i j : Nat} (elem : Nat → Nat → Bool) (hr : r ≤ 8) (hc : c ≤ 8) (hi : i < r)
    (hj : j < c) : matrixElem (packMatrix r c elem) c i j = elem i j := by
  rw [matrixElem, getLsbD_packMatrix_of_lt elem hr hc hi (by omega), show c - 1 - (c - 1 - j) = j by omega]

/-- Settles O10: all three positions of element (i,j) are the one bit `matrixElem` reads, and `matrixElem` reads bits of
the r×c region only. -/
theorem packedMatrixHoldsItsElements : Obligations.PackedMatrixHoldsItsElements := by
  unfold Obligations.PackedMatrixHoldsItsElements
  intro r c elem _ hr _ hc
  refine ⟨fun i j hi hj => ?_, fun b => getLsbD_packMatrix_of_outside elem,
    fun x y hxy i j hi hj => hxy i (c - 1 - j) hi (by omega)⟩
  have hread := matrixElem_packMatrix elem hr hc hi hj
  refine ⟨hread, hread, ?_⟩
  have hbyte : c - 1 - j < 8 := by omega
  rw [getLsbD_byteOf, decide_eq_true hbyte, Bool.true_and]
  exact hread

end Sys2Proof.Machine
end

section
/-! SUPPORT. The length of a character operand, and when it spells a codeword (`20_memory.md` R55, `42_decoder.md`
R122). -/

namespace Sys2Proof.Machine

/-- The length is the index of the first 0x00 byte (R55). -/
theorem stringLength_eq_findIdx (x : Operand) :
    stringLength x = (List.range 8).findIdx fun k => byteOf x k == 0x00#8 := by
  have hle : (List.range 8).findIdx (fun k => byteOf x k == 0x00#8) ≤ 8 := List.findIdx_le_length
  simpa [stringLength, List.takeWhile_eq_take_findIdx_not, bne] using hle

theorem stringLength_le (x : Operand) : stringLength x ≤ 8 := by
  rw [stringLength_eq_findIdx]
  exact List.findIdx_le_length

theorem byteOf_ne_zero_of_lt_stringLength {x : Operand} {k : Nat} (h : k < stringLength x) : byteOf x k ≠ 0x00#8 := by
  rw [stringLength_eq_findIdx] at h
  simpa using List.not_of_lt_findIdx h

theorem stringLength_eq_iff {x : Operand} {n : Nat} (hn : n < 8) :
    stringLength x = n ↔ byteOf x n = 0x00#8 ∧ ∀ k, k < n → byteOf x k ≠ 0x00#8 := by
  rw [stringLength_eq_findIdx, List.findIdx_eq (by simpa using hn)]
  simp

theorem packBits_eq_iff {w : Nat} {f : Nat → Bool} {v : BitVec w} :
    packBits w f = v ↔ ∀ k, k < w → f k = v.getLsbD k := by
  have hbit {k : Nat} (hk : k < w) : (packBits w f).getLsbD k = f k := by
    rw [getLsbD_packBits, decide_eq_true hk, Bool.true_and]
  exact ⟨fun h k hk => h ▸ (hbit hk).symm, fun h => BitVec.eq_of_getLsbD_eq fun k hk => (hbit hk).trans (h k hk)⟩

theorem bitChar_ne_zero (b : Bool) : bitChar b ≠ 0x00#8 := by
  cases b <;> decide

/-- The acceptance test of R122 and its reading `byte - 0x30`, together, say which bit a character spells. -/
theorem eq_bitChar_iff (c : Byte) (b : Bool) :
    c = bitChar b ↔ (c = 0x30#8 ∨ c = 0x31#8) ∧ (c - 0x30#8).getLsbD 0 = b := by
  constructor
  · rintro rfl
    cases b <;> decide
  · rintro ⟨rfl | rfl, rfl⟩ <;> rfl

/-- The three conditions under which a character operand is read as `r` (R122). -/
theorem parseChars_eq_some_iff (x : Operand) (r : Codeword) :
    parseChars x = some r ↔ stringLength x = 7 ∧ (∀ k, k < 7 → byteOf x k = 0x30#8 ∨ byteOf x k = 0x31#8) ∧
      ∀ b, b < 7 → (byteOf x (6 - b) - 0x30#8).getLsbD 0 = r.getLsbD b := by
  rw [← packBits_eq_iff]
  simp [parseChars]

theorem SpellsCodeword.byteOf_eq {x : Operand} {r : Codeword} (h : SpellsCodeword x r) {k : Nat} (hk : k < 7) :
    byteOf x k = bitChar (r.getLsbD (6 - k)) := h.1 k hk

/-- A spelled word has length 7: none of its characters is 0x00, and byte 7 is. -/
theorem SpellsCodeword.stringLength_eq {x : Operand} {r : Codeword} (h : SpellsCodeword x r) : stringLength x = 7 :=
  (stringLength_eq_iff (by decide)).2 ⟨h.2, fun _ hk => h.byteOf_eq hk ▸ bitChar_ne_zero _⟩

/-- A character operand is accepted exactly when it spells the word it is read as (R122). -/
theorem parseChars_eq_some_iff_spellsCodeword (x : Operand) (r : Codeword) :
    parseChars x = some r ↔ SpellsCodeword x r := by
  rw [parseChars_eq_some_iff]
  constructor
  · rintro ⟨hlen, hchars, hbits⟩
    refine ⟨fun k hk => (eq_bitChar_iff _ _).2 ⟨hchars k hk, ?_⟩, ((stringLength_eq_iff (by decide)).1 hlen).1⟩
    have hbit := hbits (6 - k) (by omega)
    rwa [Nat.sub_sub_self (by omega)] at hbit
  · intro h
    have hchar (k : Nat) (hk : k < 7) := (eq_bitChar_iff _ _).1 (h.byteOf_eq hk)
    refine ⟨h.stringLength_eq, fun k hk => (hchar k hk).1, fun b hb => ?_⟩
    rw [(hchar (6 - b) (by omega)).2, Nat.sub_sub_self (by omega)]

/-- Settles O11: the length is a first index, and an accepted operand spells the word it is read as. -/
theorem characterOperandsSpellCodewords : Obligations.CharacterOperandsSpellCodewords := by
  unfold Obligations.CharacterOperandsSpellCodewords
  exact ⟨fun x => ⟨stringLength_le x, fun _ => byteOf_ne_zero_of_lt_stringLength,
    fun hlt => ((stringLength_eq_iff hlt).1 rfl).1⟩, parseChars_eq_some_iff_spellsCodeword⟩

end Sys2Proof.Machine
end

section
/-! SUPPORT. Which branches of a step write STAT and RES (`20_memory.md` R57). -/

namespace Sys2Proof.Machine

/-- Settles O54: a completion shows a response, and a BUSY cycle, an acceptance without completion and an idle cycle
write neither register. -/
theorem resultChangesOnlyAtCompletionOrReset : Obligations.ResultChangesOnlyAtCompletionOrReset := by
  unfold Obligations.ResultChangesOnlyAtCompletionOrReset
  intro s t h hr hv
  obtain ⟨hrst, -⟩ | ⟨k, -, -, rfl⟩ | ⟨-, -, rfl⟩ | ⟨-, -, rfl⟩ | ⟨-, -, rfl⟩ | ⟨-, -, -, rfl⟩ := step_cases h
  · exact absurd hrst (by simp [hr])
  · exact ⟨rfl, rfl⟩
  · exact absurd hv (by simp)
  · exact absurd hv (by simp)
  · exact ⟨rfl, rfl⟩
  · exact ⟨rfl, rfl⟩

end Sys2Proof.Machine
end

section
/-! SUPPORT. The legal command words, each with its operation: the graph of the decoder, and the encoder as its inverse
(`30_encoding.md` R70-R77). -/

namespace Sys2Proof

/-- MATMUL's pattern of R74, with the letters p, b, a, m filled in. -/
def matmulWord (m a b p : BitVec 3) : CmdWord := 0#16 ++ p ++ b ++ a ++ m ++ 0b0001#4

/-- The pattern of R74 of an operation without fields: its OP, and zeros above it. -/
def plainWord (op : BitVec 4) : CmdWord := 0#28 ++ op

/-- The legal words of R74, each with the operation it selects. -/
inductive LegalWord : CmdWord → Instr → Prop where
  | matmul (m a b p : BitVec 3) :
      LegalWord (matmulWord m a b p) (.matmul (m.toNat + 1) (a.toNat + 1) (b.toNat + 1) (p.toNat + 1))
  | plain {op : BitVec 4} {i : Instr} (h : plainOp op = some i) : LegalWord (plainWord op) i

/-! ### The fields of a pattern -/

section
variable (m a b p : BitVec 3)

@[simp] theorem opField_matmulWord : opField (matmulWord m a b p) = 0x1#4 := BitVec.extractLsb'_append_eq_right

@[simp] theorem extractLsb'_matmulWord_m : (matmulWord m a b p).extractLsb' 4 3 = m :=
  (BitVec.extractLsb'_append_eq_of_le (by decide)).trans BitVec.extractLsb'_append_eq_right

@[simp] theorem extractLsb'_matmulWord_a : (matmulWord m a b p).extractLsb' 7 3 = a := by
  iterate 2 refine (BitVec.extractLsb'_append_eq_of_le (by decide)).trans ?_
  exact BitVec.extractLsb'_append_eq_right

@[simp] theorem extractLsb'_matmulWord_b : (matmulWord m a b p).extractLsb' 10 3 = b := by
  iterate 3 refine (BitVec.extractLsb'_append_eq_of_le (by decide)).trans ?_
  exact BitVec.extractLsb'_append_eq_right

@[simp] theorem extractLsb'_matmulWord_p : (matmulWord m a b p).extractLsb' 13 3 = p := by
  iterate 4 refine (BitVec.extractLsb'_append_eq_of_le (by decide)).trans ?_
  exact BitVec.extractLsb'_append_eq_right

@[simp] theorem extractLsb'_matmulWord_reserved : (matmulWord m a b p).extractLsb' 16 16 = 0#16 := by
  iterate 4 refine (BitVec.extractLsb'_append_eq_of_le (by decide)).trans ?_
  exact BitVec.extractLsb'_append_eq_left

end

@[simp] theorem opField_plainWord (op : BitVec 4) : opField (plainWord op) = op := BitVec.extractLsb'_append_eq_right

@[simp] theorem extractLsb'_plainWord_reserved (op : BitVec 4) : (plainWord op).extractLsb' 4 28 = 0#28 :=
  BitVec.extractLsb'_append_eq_left

theorem matmulWord_of_fields {cmd : CmdWord} (hop : opField cmd = 0x1#4) (hr : cmd.extractLsb' 16 16 = 0#16) :
    matmulWord (cmd.extractLsb' 4 3) (cmd.extractLsb' 7 3) (cmd.extractLsb' 10 3) (cmd.extractLsb' 13 3) = cmd := by
  have hjoin (lo n k : Nat) : cmd.extractLsb' (lo + n) k ++ cmd.extractLsb' lo n = cmd.extractLsb' lo (k + n) :=
    BitVec.extractLsb'_append_extractLsb'_eq_extractLsb' rfl
  rw [matmulWord, ← hr, ← hop, opField, hjoin 13 3, hjoin 10 3, hjoin 7 3, hjoin 4 3]
  exact (hjoin 0 4 28).trans BitVec.extractLsb'_eq_self

theorem plainWord_of_fields {cmd : CmdWord} (hr : cmd.extractLsb' 4 28 = 0#28) : plainWord (opField cmd) = cmd := by
  rw [plainWord, ← hr, opField]
  exact (BitVec.extractLsb'_append_extractLsb'_eq_extractLsb' rfl).trans BitVec.extractLsb'_eq_self

/-! ### The operations without fields -/

/-- What an OP of R73 other than MATMUL's says of its operation. -/
theorem plainOp_eq_some {op : BitVec 4} {i : Instr} (h : plainOp op = some i) :
    i.wellFormed = true ∧ encode i = plainWord op ∧ patternRow i = ⟨0xFFFFFFFF#32, plainWord op⟩ := by
  unfold plainOp at h
  split at h <;> cases h <;> exact ⟨rfl, rfl, rfl⟩

theorem wellFormed_of_plainOp {op : BitVec 4} {i : Instr} (h : plainOp op = some i) : i.wellFormed = true :=
  (plainOp_eq_some h).1

theorem encode_of_plainOp {op : BitVec 4} {i : Instr} (h : plainOp op = some i) : encode i = plainWord op :=
  (plainOp_eq_some h).2.1

theorem patternRow_of_plainOp {op : BitVec 4} {i : Instr} (h : plainOp op = some i) :
    patternRow i = ⟨0xFFFFFFFF#32, plainWord op⟩ := (plainOp_eq_some h).2.2

theorem plainOp_eq_none_iff (op : BitVec 4) : plainOp op = none ↔ op = 1#4 ∨ op = 0#4 ∨ 8 ≤ op.toNat := by
  decide +revert

/-- Every operation but MATMUL has an OP in R73's table. -/
theorem Instr.matmul_or_plain (i : Instr) :
    (∃ m nA nB p, i = .matmul m nA nB p) ∨ ∃ op, plainOp op = some i := by
  cases i with
  | matmul m nA nB p => exact .inl ⟨m, nA, nB, p, rfl⟩
  | enc => exact .inr ⟨0x2#4, rfl⟩
  | encs => exact .inr ⟨0x3#4, rfl⟩
  | syn => exact .inr ⟨0x4#4, rfl⟩
  | corr => exact .inr ⟨0x5#4, rfl⟩
  | dec => exact .inr ⟨0x6#4, rfl⟩
  | decs => exact .inr ⟨0x7#4, rfl⟩

/-! ### The decoder's graph -/

theorem LegalWord.decode_eq {cmd : CmdWord} {i : Instr} (h : LegalWord cmd i) : decode cmd = .instr i := by
  cases h with
  | matmul m a b p => simp [decode, dimField]
  | @plain op _ h =>
    have hop : op ≠ 0x1#4 := by rintro rfl; cases h
    simp [decode, hop, h]

theorem legalWord_of_decode {cmd : CmdWord} {i : Instr} (h : decode cmd = .instr i) : LegalWord cmd i := by
  unfold decode at h
  split at h
  next hop =>
    split at h
    next hr =>
      cases h
      have hlegal := LegalWord.matmul (cmd.extractLsb' 4 3) (cmd.extractLsb' 7 3) (cmd.extractLsb' 10 3)
        (cmd.extractLsb' 13 3)
      rwa [matmulWord_of_fields hop hr] at hlegal
    next => cases h
  next =>
    split at h
    next => cases h
    next j hj =>
      split at h
      next hr =>
        cases h
        have hlegal := LegalWord.plain hj
        rwa [plainWord_of_fields hr] at hlegal
      next => cases h

theorem decode_eq_instr_iff {cmd : CmdWord} {i : Instr} : decode cmd = .instr i ↔ LegalWord cmd i :=
  ⟨legalWord_of_decode, LegalWord.decode_eq⟩

/-! ### The encoder -/

theorem encode_matmul (m a b p : BitVec 3) :
    encode (.matmul (m.toNat + 1) (a.toNat + 1) (b.toNat + 1) (p.toNat + 1)) = matmulWord m a b p := by
  rw [matmulWord, ← BitVec.setWidth_eq (0#16 ++ p ++ b ++ a ++ m ++ 0b0001#4)]
  simp only [BitVec.setWidth_append_eq_shiftLeft_setWidth_or]
  simp [encode, dimBits, BitVec.shiftLeft_or_distrib, ← BitVec.shiftLeft_add]
  ac_rfl

/-- A dimension field holds 0..7, so it holds a dimension of 1..8 (R71). -/
theorem dimField_bounds (f : BitVec 3) : 1 ≤ f.toNat + 1 ∧ f.toNat + 1 ≤ 8 := ⟨Nat.le_add_left .., f.isLt⟩

theorem exists_dimField {d : Nat} (h : dimOk d = true) : ∃ f : BitVec 3, d = f.toNat + 1 := by
  obtain ⟨h1, h8⟩ := (Laws.PatternRow.dimOk_iff d).1 h
  refine ⟨BitVec.ofNat 3 (d - 1), ?_⟩
  rw [BitVec.toNat_ofNat]
  omega

theorem Instr.wellFormed_matmul_iff {m nA nB p : Nat} : (Instr.matmul m nA nB p).wellFormed = true ↔
    (1 ≤ m ∧ m ≤ 8) ∧ (1 ≤ nA ∧ nA ≤ 8) ∧ (1 ≤ nB ∧ nB ≤ 8) ∧ (1 ≤ p ∧ p ≤ 8) := by
  simp only [Instr.wellFormed, Bool.and_eq_true, Laws.PatternRow.dimOk_iff, and_assoc]

theorem Instr.legalWord_encode {i : Instr} (h : i.wellFormed = true) : LegalWord (encode i) i := by
  obtain ⟨m, nA, nB, p, rfl⟩ | ⟨op, hop⟩ := i.matmul_or_plain
  · simp only [Instr.wellFormed, Bool.and_eq_true] at h
    obtain ⟨⟨⟨hm, hnA⟩, hnB⟩, hp⟩ := h
    obtain ⟨m, rfl⟩ := exists_dimField hm
    obtain ⟨a, rfl⟩ := exists_dimField hnA
    obtain ⟨b, rfl⟩ := exists_dimField hnB
    obtain ⟨p, rfl⟩ := exists_dimField hp
    rw [encode_matmul]
    exact .matmul m a b p
  · rw [encode_of_plainOp hop]
    exact .plain hop

theorem LegalWord.wellFormed {cmd : CmdWord} {i : Instr} (h : LegalWord cmd i) : i.wellFormed = true := by
  cases h with
  | matmul m a b p =>
    exact Instr.wellFormed_matmul_iff.2 ⟨dimField_bounds m, dimField_bounds a, dimField_bounds b, dimField_bounds p⟩
  | plain hop => exact wellFormed_of_plainOp hop

theorem LegalWord.encode_eq {cmd : CmdWord} {i : Instr} (h : LegalWord cmd i) : encode i = cmd := by
  cases h with
  | matmul m a b p => exact encode_matmul m a b p
  | plain hop => exact encode_of_plainOp hop

theorem decode_encode {i : Instr} (h : i.wellFormed = true) : decode (encode i) = .instr i :=
  (Instr.legalWord_encode h).decode_eq

/-- Settles O1: the command word of a well-formed instruction is legal, and the decoder reads legal words. -/
theorem decodeOfEncodeIsTheInstruction : Obligations.DecodeOfEncodeIsTheInstruction := by
  unfold Obligations.DecodeOfEncodeIsTheInstruction
  exact fun _ => decode_encode

/-- Settles O2: a word the decoder accepts is one of the legal words. -/
theorem encodeOfDecodeIsTheWord : Obligations.EncodeOfDecodeIsTheWord := by
  unfold Obligations.EncodeOfDecodeIsTheWord
  intro cmd i h
  have hlegal := legalWord_of_decode h
  exact ⟨hlegal.wellFormed, hlegal.encode_eq⟩

/-- Settles O5: the fields of a MATMUL word are the letters of its pattern, three bits each. -/
theorem dimensionFieldsHoldDimensionMinusOne : Obligations.DimensionFieldsHoldDimensionMinusOne := by
  unfold Obligations.DimensionFieldsHoldDimensionMinusOne
  intro cmd m nA nB p h
  have hlegal := legalWord_of_decode h
  have hdims := Instr.wellFormed_matmul_iff.1 hlegal.wellFormed
  cases hlegal with
  | matmul m a b p => simpa using hdims
  | plain hop =>
    -- MATMUL's row has another mask than those of the operations with an OP alone.
    cases patternRow_of_plainOp hop

/-- Settles O6: the words are computed by the encoder, and the decoder reads them back. -/
theorem exampleWordsDecode : Obligations.ExampleWordsDecode := by
  unfold Obligations.ExampleWordsDecode
  decide

/-- Settles O7: the six words are the encodings of the six operations. -/
theorem plainOperationWordsDecode : Obligations.PlainOperationWordsDecode := by
  unfold Obligations.PlainOperationWordsDecode
  exact ⟨rfl, rfl, rfl, rfl, rfl, rfl⟩

end Sys2Proof
end

section
/-! SUPPORT. The match table selects exactly the legal words, and the words it leaves are the reserved ones
(`30_encoding.md` R74, R75, `60_exceptions.md` R142). -/

namespace Sys2Proof

open Machine

theorem and_allOnes_eq_iff (cmd word : CmdWord) : cmd &&& 0xFFFFFFFF#32 = word ↔ cmd = word := by
  rw [show 0xFFFFFFFF#32 = BitVec.allOnes 32 from rfl, BitVec.and_allOnes]

/-- MATMUL's mask keeps the OP and the reserved bits, and drops the dimension fields. -/
theorem and_matmulMask_eq_iff (cmd : CmdWord) :
    cmd &&& 0xFFFF000F#32 = 0x00000001#32 ↔ opField cmd = 0x1#4 ∧ cmd.extractLsb' 16 16 = 0#16 := by
  constructor
  · intro h
    have hop := congrArg (BitVec.extractLsb' 0 4) h
    have hr := congrArg (BitVec.extractLsb' 16 16) h
    rw [BitVec.extractLsb'_and] at hop hr
    exact ⟨BitVec.and_allOnes.symm.trans hop, BitVec.and_allOnes.symm.trans hr⟩
  · rintro ⟨hop, hr⟩
    have hmask : 0xFFFF000F#32 = 0xFFFF#16 ++ 0#3 ++ 0#3 ++ 0#3 ++ 0#3 ++ 0xF#4 := rfl
    rw [← matmulWord_of_fields hop hr, matmulWord, hmask]
    iterate 5 rw [BitVec.and_append]
    simp only [BitVec.and_zero]
    rfl

theorem mem_patternTable_iff (row : PatternRow) : row ∈ patternTable ↔ ∃ i, row = patternRow i := by
  constructor
  · intro h
    have htable : patternTable = [Instr.matmul 1 1 1 1, .enc, .encs, .syn, .corr, .dec, .decs].map patternRow := rfl
    rw [htable, List.mem_map] at h
    obtain ⟨i, -, hi⟩ := h
    exact ⟨i, hi.symm⟩
  · rintro ⟨i, rfl⟩
    cases i <;> simp [patternRow, patternTable]

/-- A word matches a row exactly when the decoder finds the row's operation in it (R74). -/
theorem matches_patternRow_iff (cmd : CmdWord) (i : Instr) :
    cmd &&& (patternRow i).mask = (patternRow i).pattern ↔
      ∃ j, decode cmd = .instr j ∧ patternRow j = patternRow i := by
  simp only [decode_eq_instr_iff]
  obtain ⟨m, nA, nB, p, rfl⟩ | ⟨op, hop⟩ := i.matmul_or_plain
  · rw [show patternRow (.matmul m nA nB p) = ⟨0xFFFF000F#32, 0x00000001#32⟩ from rfl, and_matmulMask_eq_iff]
    constructor
    · rintro ⟨hop, hr⟩
      rw [← matmulWord_of_fields hop hr]
      exact ⟨_, .matmul _ _ _ _, rfl⟩
    · rintro ⟨j, hlegal, hrow⟩
      cases hlegal with
      | matmul m a b p => simp
      | plain hop =>
        rw [patternRow_of_plainOp hop] at hrow
        cases hrow
  · rw [patternRow_of_plainOp hop, and_allOnes_eq_iff]
    constructor
    · rintro rfl
      exact ⟨i, .plain hop, patternRow_of_plainOp hop⟩
    · rintro ⟨j, hlegal, hrow⟩
      cases hlegal with
      | matmul m a b p => cases hrow
      | plain hop' =>
        rw [patternRow_of_plainOp hop'] at hrow
        injection hrow

theorem matches_row_iff {row : PatternRow} (hrow : row ∈ patternTable) (cmd : CmdWord) :
    cmd &&& row.mask = row.pattern ↔ ∃ i, decode cmd = .instr i ∧ patternRow i = row := by
  obtain ⟨i, rfl⟩ := (mem_patternTable_iff row).1 hrow
  exact matches_patternRow_iff cmd i

/-- Two rows that match one word are both the row of what the word decodes to. -/
theorem patternTable_disjoint : patternTable.Pairwise fun a b =>
    ∀ cmd : CmdWord, ¬(cmd &&& a.mask = a.pattern ∧ cmd &&& b.mask = b.pattern) := by
  have hdistinct : patternTable.Pairwise (· ≠ ·) := by decide
  refine hdistinct.imp_of_mem fun ha hb hab cmd hboth => hab ?_
  obtain ⟨i, hi, rfl⟩ := (matches_row_iff ha cmd).1 hboth.1
  obtain ⟨j, hj, rfl⟩ := (matches_row_iff hb cmd).1 hboth.2
  cases hi.symm.trans hj
  rfl

/-- Settles O3: a word matches a row exactly when it decodes to an operation of that row. -/
theorem patternRowsSelectOperations : Obligations.PatternRowsSelectOperations := by
  unfold Obligations.PatternRowsSelectOperations
  exact ⟨fun _ _ _ _ => rfl, rfl, mem_patternTable_iff, patternTable_disjoint,
    fun cmd i h => (matches_patternRow_iff cmd i).2 ⟨i, h, rfl⟩,
    fun cmd row hrow => (matches_row_iff hrow cmd).1,
    fun m a b p => (LegalWord.matmul m a b p).decode_eq⟩

/-! ### The reserved words (R75) -/

theorem exists_illegal_iff (cmd : CmdWord) : (∃ why, decode cmd = .illegal why) ↔ ∀ i, decode cmd ≠ .instr i := by
  cases decode cmd <;> simp

/-- The three branches of the decoder that answer ILLEGAL are the three classes of R75. -/
theorem exists_illegal_iff_reservedWord (cmd : CmdWord) : (∃ why, decode cmd = .illegal why) ↔ ReservedWord cmd := by
  change _ ↔ (opField cmd = 0#4 ∨ 8 ≤ (opField cmd).toNat) ∨ (opField cmd = 1#4 ∧ cmd.extractLsb' 16 16 ≠ 0#16) ∨
    (2 ≤ (opField cmd).toNat ∧ (opField cmd).toNat ≤ 7 ∧ cmd.extractLsb' 4 28 ≠ 0#28)
  have hnone := plainOp_eq_none_iff (opField cmd)
  unfold decode
  by_cases hop : opField cmd = 1#4
  · by_cases hr : cmd.extractLsb' 16 16 = 0#16 <;> simp [hop, hr]
  rw [if_neg hop]
  cases hplain : plainOp (opField cmd) with
  | none =>
    have hreserved := (hnone.1 hplain).resolve_left hop
    exact iff_of_true ⟨_, rfl⟩ (.inl hreserved)
  | some i =>
    have hrange : opField cmd ≠ 0#4 ∧ 2 ≤ (opField cmd).toNat ∧ (opField cmd).toNat ≤ 7 := by
      simp only [hplain, reduceCtorEq, false_iff] at hnone
      bv_omega
    obtain ⟨h0, h2, h7⟩ := hrange
    have h8 : ¬8 ≤ (opField cmd).toNat := by omega
    by_cases hr : cmd.extractLsb' 4 28 = 0#28 <;> simp [hop, hr, h0, h2, h7, h8]

/-- A word that matches no row decodes to no operation, and the other way round. -/
theorem matches_no_row_iff (cmd : CmdWord) :
    (∀ row ∈ patternTable, cmd &&& row.mask ≠ row.pattern) ↔ ∃ why, decode cmd = .illegal why := by
  rw [exists_illegal_iff]
  constructor
  · intro h i hi
    exact h (patternRow i) ((mem_patternTable_iff _).2 ⟨i, rfl⟩) ((matches_patternRow_iff cmd i).2 ⟨i, hi, rfl⟩)
  · intro h row hrow hmatch
    obtain ⟨i, hi, -⟩ := (matches_row_iff hrow cmd).1 hmatch
    exact h i hi

theorem complete_of_illegal {s : State} {why : IllegalWord} (h : decode s.cmd = .illegal why) :
    complete s = .next (s.finish .illegalOp 0#64) := by
  simp [complete, h]

/-- Settles O4: the words without a row are those the decoder rejects, and the completion edge raises ILLEGAL_OP on
them. -/
theorem reservedWordsCompleteWithIllegalOp : Obligations.ReservedWordsCompleteWithIllegalOp := by
  unfold Obligations.ReservedWordsCompleteWithIllegalOp
  intro cmd
  have hillegal := exists_illegal_iff_reservedWord cmd
  refine ⟨(matches_no_row_iff cmd).trans hillegal, hillegal, ?_⟩
  rintro hr s rfl
  obtain ⟨why, hwhy⟩ := hillegal.2 hr
  exact complete_of_illegal hwhy

end Sys2Proof
end

section
/-! SUPPORT. What the assembler gives for each form (`30_encoding.md` R78). -/

namespace Sys2Proof.Machine

theorem instrRequest_of_wellFormed {i : Instr} (h : i.wellFormed = true) (a b : Operand) :
    instrRequest i a b = some ⟨encode i, a, b⟩ := if_pos h

theorem instrRequest_eq_some_iff {i : Instr} {a b : Operand} {r : Request} :
    instrRequest i a b = some r ↔ i.wellFormed = true ∧ r = ⟨encode i, a, b⟩ := by
  rw [instrRequest, Option.ite_none_right_eq_some, Option.some_inj, eq_comm (a := r)]

theorem instrRequest_eq_none_iff {i : Instr} {a b : Operand} : instrRequest i a b = none ↔ ¬i.wellFormed = true := by
  simp [instrRequest]

/-- DECS packs its characters as bytes, and leaves 0x00 past the last (R55). -/
theorem assemble_decs_of_length_le {str : List Byte} (h : str.length ≤ 8) :
    assemble (.decs str) = some ⟨0x00000007#32, packString str, 0#64⟩ := if_pos h

theorem assemble_decs_of_lt_length {str : List Byte} (h : 8 < str.length) : assemble (.decs str) = none :=
  if_neg (Nat.not_le.2 h)

/-- Settles O8, form by form. -/
theorem assemblerGivesTheRequest : Obligations.AssemblerGivesTheRequest := by
  unfold Obligations.AssemblerGivesTheRequest
  refine ⟨fun m nA nB p a b r h => ?matmul, fun m nA nB p a b => ?refused, fun v => ⟨rfl, rfl, rfl, rfl, rfl⟩,
    fun str h => ⟨packString str, assemble_decs_of_length_le h, fun k hk => ?char, fun k hk hk8 => ?past⟩,
    fun str h => assemble_decs_of_lt_length h, fun cmd a b => rfl⟩
  case matmul =>
    obtain ⟨hwf, rfl⟩ := instrRequest_eq_some_iff.1 h
    exact ⟨decode_encode hwf, rfl, rfl⟩
  case refused => exact instrRequest_eq_none_iff.trans Instr.wellFormed_matmul_iff.not
  case char => rw [byteOf_packString _ _ (by omega), List.getD_eq_getElem _ _ hk]
  case past => rw [byteOf_packString _ _ hk8, List.getD_eq_default _ _ hk]

end Sys2Proof.Machine
end

section
/-! SUPPORT. OPB outside MATMUL, and the cycles that run the decoded instruction (`30_encoding.md` R76, R77,
`70_reset_and_hazards.md` R163). -/

namespace Sys2Proof.Machine

/-- OPB is an operand of MATMUL alone (R76). -/
theorem perform_opb_irrelevant {i : Instr} (h : ∀ m nA nB p, i ≠ .matmul m nA nB p) (t : CodeTables)
    (opa b b' : Operand) : perform t i opa b = perform t i opa b' := by
  cases i with
  | matmul m nA nB p => exact absurd rfl (h m nA nB p)
  | enc | encs | syn | corr | dec | decs => rfl

/-- Settles O44: an operation ends in what it performs, which OPB is no part of, and leaves the latch OPB as it is. -/
theorem opbIsIgnoredByHammingOperations : Obligations.OpbIsIgnoredByHammingOperations := by
  unfold Obligations.OpbIsIgnoredByHammingOperations
  intro i s t b hi h
  rw [exec_eq_finish] at h ⊢
  cases h
  rw [perform_opb_irrelevant hi _ _ _ s.opb]
  rfl

theorem complete_of_instr {s : State} {i : Instr} (h : decode s.cmd = .instr i) : complete s = exec i s := by
  simp [complete, h]

theorem acceptCycle_of_instr {s : State} {r : Request} {i : Instr} (hl : s.latency = 1) (h : decode r.cmd = .instr i) :
    acceptCycle r s = exec i (s.accept r) := by
  rw [acceptCycle, if_pos hl.le, complete_of_instr h]

theorem decode_tableCommand {nbits w : Nat} {i : Instr} (h : decodeTableWord nbits w = some i) :
    decode (tableCommand nbits w) = .instr i := by
  unfold decodeTableWord at h
  split at h
  next hdecode => cases h; exact hdecode
  next => cases h

/-- Settles O40: each cycle ends in the completion edge of the request, accepted or latched. -/
theorem stepRunsTheDecodedInstruction : Obligations.StepRunsTheDecodedInstruction := by
  unfold Obligations.StepRunsTheDecodedInstruction
  refine ⟨fun s i ha hl h => ?accepted, fun s i hr hk h => ?last, fun s nbits w i h => ?fetched⟩
  case accepted => exact (step_of_accepts ha).trans (acceptCycle_of_instr hl h)
  case last => exact (step_of_last hr hk).trans (complete_of_instr h)
  case fetched =>
    have ha : (s.withFetchWord nbits w).accepts = true := rfl
    exact (step_of_accepts ha).trans (acceptCycle_of_instr rfl (decode_tableCommand h))

end Sys2Proof.Machine
end

section
/-! SUPPORT. Codewords and syndromes as matrix products, and the pseudo-instructions ENCM and SYNM (`30_encoding.md`
R79). -/

namespace Sys2Proof.Machine

/-! ### Codewords and syndromes as sums over positions (R111, R123) -/

theorem xorBelow_succ_first (n : Nat) (f : Nat → Bool) :
    xorBelow (n + 1) f = (f 0 ^^ xorBelow n fun k => f (k + 1)) := by
  induction n with
  | zero => simp [xorBelow]
  | succ n ih => rw [xorBelow, ih, xorBelow, Bool.xor_assoc]

theorem xorBelow_reverse (n : Nat) (f : Nat → Bool) : (xorBelow n fun k => f (n - 1 - k)) = xorBelow n f := by
  induction n with
  | zero => rfl
  | succ n ih =>
    have hshift : (xorBelow n fun k => f (n + 1 - 1 - (k + 1))) = xorBelow n f :=
      (xorBelow_congr fun k _ => congrArg f (by omega)).trans ih
    rw [xorBelow_succ_first, hshift, xorBelow, Bool.xor_comm]
    rfl

/-- Bit `q` of a codeword is the data row times column `6 - q` of G. -/
theorem CodeTables.getLsbD_codeword (t : CodeTables) (v : Nibble) (q : Nat) : (t.codeword v).getLsbD q =
    xorBelow 4 fun k => v.getLsbD (3 - k) && (t.grow.toList.getD k 0#7).getLsbD q := by
  have hterm (c : Bool) (cw row : Codeword) :
      (if c then cw ^^^ row else cw).getLsbD q = (cw.getLsbD q ^^ (c && row.getLsbD q)) := by
    cases c <;> simp
  have hrows : List.finRange 4 = [0, 1, 2, 3] := rfl
  simp only [CodeTables.codeword, hrows, List.foldl, hterm, BitVec.getLsbD_zero, xorBelow]
  simp

/-- A word's parity, summed position by position. -/
theorem parity_eq_xorBelow_positions (w : Codeword) : parity w = xorBelow 7 fun j => w.getLsbD (6 - j) :=
  (xorBelow_reverse 7 w.getLsbD).symm

theorem getLsbD_threeBits (b0 b1 b2 : Bool) : (threeBits b0 b1 b2).getLsbD 2 = b0 ∧
    (threeBits b0 b1 b2).getLsbD 1 = b1 ∧ (threeBits b0 b1 b2).getLsbD 0 = b2 := by
  decide +revert

/-- The three bits of a syndrome, from the top: the rows of H times the received column. -/
theorem CodeTables.getLsbD_syndrome (t : CodeTables) (r : Codeword) {i : Nat} (hi : i < 3) :
    (t.syndrome r).getLsbD (2 - i) = parity (t.hrow.toList.getD i 0#7 &&& r) := by
  obtain ⟨h0, h1, h2⟩ := getLsbD_threeBits (parity (t.hrow[0] &&& r)) (parity (t.hrow[1] &&& r))
    (parity (t.hrow[2] &&& r))
  match i, hi with
  | 0, _ => simpa [CodeTables.syndrome] using h0
  | 1, _ => simpa [CodeTables.syndrome] using h1
  | 2, _ => simpa [CodeTables.syndrome] using h2

theorem execRequest_of_instr {cmd : CmdWord} {i : Instr} (h : decode cmd = .instr i) (t : CodeTables) (a b : Operand) :
    execRequest t ⟨cmd, a, b⟩ = perform t i a b := by
  simp [execRequest, h]

/-! ### ENCM -/

/-- The product of a nibble and G, bit by bit. -/
theorem productElem_packedG (v : Operand) {j : Nat} (hj : j < 7) :
    productElem v packedG 4 7 0 j = (CodeTables.default.codeword (v.extractLsb' 0 4)).getLsbD (6 - j) := by
  rw [CodeTables.getLsbD_codeword]
  refine xorBelow_congr fun k hk => ?_
  have hk4 : 3 - k < 4 := by omega
  rw [packedG, matrixElem_packMatrix _ (by decide) (by decide) hk hj]
  simp [matrixElem, hk4]

/-- A matrix of one row is that row's numeral (R53). -/
theorem packMatrix_one_row {elem : Nat → Nat → Bool} {cw : Codeword}
    (h : ∀ j, j < 7 → elem 0 j = cw.getLsbD (6 - j)) : packMatrix 1 7 elem = cw.setWidth 64 := by
  refine BitVec.eq_of_getLsbD_eq fun q hq => ?_
  rw [BitVec.getLsbD_setWidth, decide_eq_true hq, Bool.true_and]
  by_cases hq7 : q < 7
  · have hbit := getLsbD_packMatrix_of_lt (r := 1) (i := 0) elem (by decide) (by decide) (by decide) hq7
    rw [Nat.mul_zero, Nat.zero_add] at hbit
    rw [hbit, h (7 - 1 - q) (by omega), Nat.sub_sub_self (by omega)]
  · rw [getLsbD_packMatrix_of_outside _ (by omega), BitVec.getLsbD_of_ge _ _ (by omega)]

theorem matmulResult_packedG (v : Operand) : matmulResult 1 4 4 7 v packedG =
    .ok ((CodeTables.default.codeword (v.extractLsb' 0 4)).setWidth 64) :=
  congrArg Completion.ok (packMatrix_one_row fun _ => productElem_packedG v)

/-- ENCM's MATMUL gives what ENC gives. -/
theorem matmulResult_packedG_eq_encResult {v : Operand} (hv : v.toNat ≤ 15) :
    matmulResult 1 4 4 7 v packedG = encResult CodeTables.default v := by
  rw [matmulResult_packedG, encResult, encodeWith, if_neg (Nat.not_lt.2 hv)]

theorem packedG_eq : packedG = 0x0000000071325468#64 := by decide +kernel

theorem packedH_eq : packedH = 0x0000000000172B4D#64 := by decide +kernel

theorem assemble_encm {v : Operand} (hv : v.toNat ≤ 15) :
    assemble (.encm v) = some ⟨0x0000CD81#32, v, packedG⟩ := if_pos hv

theorem decode_encm : decode 0x0000CD81#32 = .instr (.matmul 1 4 4 7) := by decide

/-! ### SYNM -/

theorem productElem_packedH (cw : Codeword) {i : Nat} (hi : i < 3) :
    productElem packedH (packColumn cw) 7 1 i 0 = (CodeTables.default.syndrome cw).getLsbD (2 - i) := by
  rw [CodeTables.getLsbD_syndrome _ _ hi, parity_eq_xorBelow_positions]
  refine xorBelow_congr fun k hk => ?_
  rw [packedH, packColumn, matrixElem_packMatrix _ (by decide) (by decide) hi hk,
    matrixElem_packMatrix _ (by decide) (by decide) hk (by decide), BitVec.getLsbD_and]

/-- A matrix of one column holds its elements at the low bits of the bytes (R53). -/
theorem getLsbD_packMatrix_one_column {r : Nat} (hr : r ≤ 8) (elem : Nat → Nat → Bool) (q : Nat) :
    (packMatrix r 1 elem).getLsbD q = (decide (q / 8 < r) && decide (q % 8 = 0) && elem (q / 8) 0) := by
  rw [getLsbD_packMatrix]
  by_cases hrow : q / 8 < r
  · have hq : q < 64 := by omega
    simp [hq]
  · simp [hrow]

theorem getLsbD_packColumn (cw : Codeword) (q : Nat) :
    (packColumn cw).getLsbD q = (decide (q < 56) && decide (q % 8 = 0) && cw.getLsbD (6 - q / 8)) := by
  have hrow : q / 8 < 7 ↔ q < 56 := Nat.div_lt_iff_lt_mul (by decide)
  rw [packColumn, getLsbD_packMatrix_one_column (by decide), decide_eq_decide.2 hrow]

/-- The product of H and a column is the syndrome as a column. -/
theorem getLsbD_productH (cw : Codeword) (q : Nat) :
    (packMatrix 3 1 (productElem packedH (packColumn cw) 7 1)).getLsbD q =
      ((decide (q = 0) && (CodeTables.default.syndrome cw).getLsbD 2) ||
       (decide (q = 8) && (CodeTables.default.syndrome cw).getLsbD 1) ||
       (decide (q = 16) && (CodeTables.default.syndrome cw).getLsbD 0)) := by
  rw [getLsbD_packMatrix_one_column (by decide)]
  by_cases h : q = 0 ∨ q = 8 ∨ q = 16
  · obtain rfl | rfl | rfl := h <;> simp [productElem_packedH]
  · have hout : ¬(q / 8 < 3 ∧ q % 8 = 0) := by omega
    obtain ⟨h0, h8, h16⟩ : q ≠ 0 ∧ q ≠ 8 ∧ q ≠ 16 := by omega
    rw [← Bool.decide_and, decide_eq_false hout]
    simp [h0, h8, h16]

theorem assemble_synm (cw : Operand) :
    assemble (.synm cw) = some ⟨0x00001B21#32, packedH, packColumn (cw.setWidth 7)⟩ := rfl

theorem decode_synm : decode 0x00001B21#32 = .instr (.matmul 3 7 7 1) := by decide

/-- Settles O9: a row times G is the codeword, and H times a column is the syndrome. -/
theorem pseudoInstructionsExpandToMatmul : Obligations.PseudoInstructionsExpandToMatmul := by
  unfold Obligations.PseudoInstructionsExpandToMatmul
  refine ⟨fun v hv => if_neg (Nat.not_le.2 hv), fun v hv => ?encm, fun cw hcw => ?synm⟩
  case encm =>
    rw [← packedG_eq]
    refine ⟨assemble_encm hv, fun b => ?_⟩
    have henc : decode 0x00000002#32 = .instr .enc := rfl
    rw [execRequest_of_instr decode_encm, execRequest_of_instr henc]
    exact matmulResult_packedG_eq_encResult hv
  case synm =>
    rw [← packedH_eq]
    refine ⟨packColumn (cw.setWidth 7), fun q => ?_, assemble_synm cw, _, execRequest_of_instr decode_synm _ _ _,
      getLsbD_productH _⟩
    have hbit : 6 - q / 8 < 7 := by omega
    rw [getLsbD_packColumn, BitVec.getLsbD_setWidth, decide_eq_true hbit, Bool.true_and]

end Sys2Proof.Machine
end

section
/-! SUPPORT. What MATMUL completes with, and which operations can raise DIM_MISMATCH (`40_matmul.md` R100, R104,
`60_exceptions.md` R144). -/

namespace Sys2Proof.Machine

theorem le_eight_of_dimOk {d : Nat} (h : dimOk d = true) : d ≤ 8 := ((Laws.PatternRow.dimOk_iff d).1 h).2

theorem matmulResult_self (m n p : Nat) (a b : Operand) :
    matmulResult m n n p a b = .ok (packMatrix m p (productElem a b n p)) := if_pos rfl

theorem matmulResult_of_ne {nA nB : Nat} (h : nA ≠ nB) (m p : Nat) (a b : Operand) :
    matmulResult m nA nB p a b = .error .dimMismatch := if_neg h

/-- A matched MATMUL finishes with OK and the packed product. -/
theorem exec_matmul_self (m n p : Nat) (s : State) :
    exec (.matmul m n n p) s = .next (s.finish .ok (packMatrix m p (productElem s.opa s.opb n p))) := by
  rw [exec_eq_finish, perform, matmulResult_self]
  rfl

theorem exec_matmul_of_ne {nA nB : Nat} (h : nA ≠ nB) (m p : Nat) (s : State) :
    exec (.matmul m nA nB p) s = .next (s.finish .dimMismatch 0#64) := by
  rw [exec_eq_finish, perform, matmulResult_of_ne h]
  rfl

/-- Settles O12: the bits of the packed product are its elements, and the packing leaves 0 outside its region. -/
theorem matmulWritesTheProduct : Obligations.MatmulWritesTheProduct := by
  unfold Obligations.MatmulWritesTheProduct
  intro s m nA nB p hm _ _ hp
  refine ⟨fun hne => exec_matmul_of_ne hne m p s, ?_⟩
  rintro rfl
  exact ⟨_, exec_matmul_self m nA p s,
    fun i j hi hj => matrixElem_packMatrix _ (le_eight_of_dimOk hm) (le_eight_of_dimOk hp) hi hj,
    fun b => getLsbD_packMatrix_of_outside _⟩

/-! ### DIM_MISMATCH (R104, R144) -/

/-- The encoder operations have one error, OUT_OF_RANGE (R145). -/
theorem encodeWith_status (form : Codeword → Operand) (t : CodeTables) (v : Operand) :
    (encodeWith form t v).status = .ok ∨ (encodeWith form t v).status = .outOfRange := by
  unfold encodeWith
  split
  · exact .inr rfl
  · exact .inl rfl

/-- The decoder operations have two errors, of the operand and of the lookup (R146, R147). -/
theorem decodeWith_status (payload : Codeword → ErrorInfo → Codeword) (t : CodeTables) (parsed : Option Codeword) :
    (decodeWith payload t parsed).status = .ok ∨ (decodeWith payload t parsed).status = .malformedCodeword ∨
      (decodeWith payload t parsed).status = .unmappedSyndrome := by
  unfold decodeWith
  split
  · exact .inr (.inl rfl)
  · split
    · exact .inr (.inr rfl)
    · exact .inl rfl

theorem encodeWith_ne_dimMismatch (form : Codeword → Operand) (t : CodeTables) (v : Operand) :
    (encodeWith form t v).status ≠ .dimMismatch := by
  obtain h | h := encodeWith_status form t v <;> simp [h]

theorem decodeWith_ne_dimMismatch (payload : Codeword → ErrorInfo → Codeword) (t : CodeTables)
    (parsed : Option Codeword) : (decodeWith payload t parsed).status ≠ .dimMismatch := by
  obtain h | h | h := decodeWith_status payload t parsed <;> simp [h]

theorem perform_ne_dimMismatch {i : Instr} (h : ∀ m nA nB p, i ≠ .matmul m nA nB p) (t : CodeTables) (a b : Operand) :
    (perform t i a b).status ≠ .dimMismatch := by
  cases i with
  | matmul m nA nB p => exact absurd rfl (h m nA nB p)
  | enc | encs => exact encodeWith_ne_dimMismatch _ _ _
  | syn | corr | dec | decs => exact decodeWith_ne_dimMismatch _ _ _

/-- The one way to DIM_MISMATCH. -/
theorem perform_status_eq_dimMismatch_iff (t : CodeTables) (i : Instr) (a b : Operand) :
    (perform t i a b).status = .dimMismatch ↔ ∃ m nA nB p, i = .matmul m nA nB p ∧ nA ≠ nB := by
  constructor
  · intro hstat
    by_cases hi : ∃ m nA nB p, i = .matmul m nA nB p
    · obtain ⟨m, nA, nB, p, rfl⟩ := hi
      refine ⟨m, nA, nB, p, rfl, ?_⟩
      rintro rfl
      rw [perform, matmulResult_self] at hstat
      cases hstat
    · push Not at hi
      exact absurd hstat (perform_ne_dimMismatch hi t a b)
  · rintro ⟨m, nA, nB, p, rfl, hne⟩
    rw [perform, matmulResult_of_ne hne]
    rfl

/-- Settles O13: an operation's status code is DIM_MISMATCH's exactly when it is a MATMUL of unequal inner dimensions, whose
completion is the error itself. -/
theorem dimMismatchIsMatmulWithUnequalInnerDimensions :
    Obligations.DimMismatchIsMatmulWithUnequalInnerDimensions := by
  unfold Obligations.DimMismatchIsMatmulWithUnequalInnerDimensions
  intro i s t h
  have hiff : t.stat = 2#8 ↔ ∃ m nA nB p, i = .matmul m nA nB p ∧ nA ≠ nB := by
    rw [exec_eq_finish] at h
    cases h
    exact Status.code_injective.eq_iff.trans (perform_status_eq_dimMismatch_iff s.rom i s.opa s.opb)
  refine ⟨hiff, fun hstat => ?_, ?_⟩
  · obtain ⟨m, nA, nB, p, rfl, hne⟩ := hiff.1 hstat
    rw [exec_matmul_of_ne hne] at h
    cases h
    rfl
  · rintro m nA nB p rfl rfl
    rw [exec_matmul_self] at h
    cases h
    rfl

end Sys2Proof.Machine
end

section
/-! SUPPORT. A product element by element and row by row, and the operand bits it reads (`40_matmul.md` R101, R102, R103). -/

namespace Sys2Proof.Machine

/-! ### Elements and rows -/

theorem getLsbD_byteOf_of_lt (x : Operand) (k : Nat) {q : Nat} (hq : q < 8) :
    (byteOf x k).getLsbD q = x.getLsbD (8 * k + q) := by
  rw [getLsbD_byteOf, decide_eq_true hq, Bool.true_and]

/-- The numeral of row `i` of a packed matrix with `c` columns, bit by bit (R53). -/
theorem getLsbD_rowNumeral {c q : Nat} (x : Operand) (i : Nat) (hc : c ≤ 8) (hq : q < c) :
    ((byteOf x i).setWidth c).getLsbD q = x.getLsbD (8 * i + q) := by
  rw [BitVec.getLsbD_setWidth, decide_eq_true hq, Bool.true_and, getLsbD_byteOf_of_lt x i (hq.trans_le hc)]

/-- Element `(i,j)` of a packed matrix is a bit of byte `i` (R53). -/
theorem getLsbD_byteOf_eq_matrixElem {c j : Nat} (x : Operand) (i : Nat) (hc : c ≤ 8) (hj : j < c) :
    (byteOf x i).getLsbD (c - 1 - j) = matrixElem x c i j :=
  getLsbD_byteOf_of_lt x i (by omega)

/-- A product element reads row `i` of A and column `j` of B only. -/
theorem productElem_congr {a a' b b' : Operand} {n p i j : Nat}
    (hA : ∀ k, k < n → matrixElem a n i k = matrixElem a' n i k)
    (hB : ∀ k, k < n → matrixElem b p k j = matrixElem b' p k j) :
    productElem a b n p i j = productElem a' b' n p i j :=
  xorBelow_congr fun k hk => by rw [hA k hk, hB k hk]

theorem parity_eq_xorBelow_reverse {w : Nat} (v : BitVec w) : parity v = xorBelow w fun k => v.getLsbD (w - 1 - k) :=
  (xorBelow_reverse w v.getLsbD).symm

/-- The product element as one parity (R101): read from the left, the row numeral and the column vector run together. -/
theorem productElem_eq_parity (a b : Operand) {n : Nat} (p i j : Nat) (hn : n ≤ 8) :
    productElem a b n p i j =
      parity ((byteOf a i).setWidth n &&& packBits n fun q => matrixElem b p (n - 1 - q) j) := by
  rw [parity_eq_xorBelow_reverse]
  refine xorBelow_congr fun k hk => ?_
  have hbit : n - 1 - k < n := by omega
  have hback : n - 1 - (n - 1 - k) = k := by omega
  rw [BitVec.getLsbD_and, getLsbD_rowNumeral a i hn hbit, getLsbD_packBits, decide_eq_true hbit, Bool.true_and, hback,
    matrixElem]

/-- Settles O14: the bit of the packed product is the element, which is that parity. -/
theorem productElementIsParityOfRowAndColumn : Obligations.ProductElementIsParityOfRowAndColumn := by
  unfold Obligations.ProductElementIsParityOfRowAndColumn
  intro s m n p hm hn hp
  refine ⟨_, exec_matmul_self m n p s, fun i j hi hj => ?_⟩
  rw [← productElem_eq_parity _ _ _ _ _ (le_eight_of_dimOk hn)]
  exact matrixElem_packMatrix _ (le_eight_of_dimOk hm) (le_eight_of_dimOk hp) hi hj

/-- The XOR of the selected rows, bit by bit. -/
theorem getLsbD_foldl_xor_selected {w : Nat} (selected : Nat → Bool) (row : Nat → BitVec w) (n q : Nat) :
    ((List.range n).foldl (fun acc k => if selected k then acc ^^^ row k else acc) 0#w).getLsbD q =
      xorBelow n fun k => selected k && (row k).getLsbD q := by
  induction n with
  | zero => simp [xorBelow]
  | succ n ih =>
    rw [List.range_succ, List.foldl_append, xorBelow, ← ih]
    cases h : selected n <;> simp [h]

/-- Row `i` of the product is the XOR of the rows of B that row `i` of A selects (R102). -/
theorem rowNumeral_product (a b : Operand) {m p i : Nat} (n : Nat) (hm : m ≤ 8) (hp : p ≤ 8) (hi : i < m) :
    (byteOf (packMatrix m p (productElem a b n p)) i).setWidth p =
      (List.range n).foldl
        (fun acc k => if matrixElem a n i k then acc ^^^ (byteOf b k).setWidth p else acc) 0#p := by
  refine BitVec.eq_of_getLsbD_eq fun q hq => ?_
  rw [getLsbD_rowNumeral _ i hp hq, getLsbD_packMatrix_of_lt _ hm hp hi hq, getLsbD_foldl_xor_selected]
  refine xorBelow_congr fun k _ => ?_
  have hback : p - 1 - (p - 1 - q) = q := by omega
  rw [getLsbD_rowNumeral b k hp hq, matrixElem, matrixElem, hback]

/-- Settles O15: the row sum, and a product element reads byte `i` of OPA and one bit of each byte of OPB. -/
theorem productRowIsXorOfSelectedRows : Obligations.ProductRowIsXorOfSelectedRows := by
  unfold Obligations.ProductRowIsXorOfSelectedRows
  intro s m n p i hm hn hp hi
  have hm8 := le_eight_of_dimOk hm
  have hn8 := le_eight_of_dimOk hn
  have hp8 := le_eight_of_dimOk hp
  refine ⟨_, exec_matmul_self m n p s, rowNumeral_product s.opa s.opb n hm8 hp8 hi, fun u j hj hA hB => ?_⟩
  refine ⟨_, exec_matmul_self m n p u, ?_⟩
  have hcongr : productElem u.opa u.opb n p i j = productElem s.opa s.opb n p i j := by
    refine productElem_congr (fun k hk => ?_) fun k hk => ?_
    · rw [← getLsbD_byteOf_eq_matrixElem u.opa i hn8 hk, hA, getLsbD_byteOf_eq_matrixElem _ _ hn8 hk]
    · rw [← getLsbD_byteOf_eq_matrixElem u.opb k hp8 hj, hB k hk, getLsbD_byteOf_eq_matrixElem _ _ hp8 hj]
  have hread (x : State) := matrixElem_packMatrix (productElem x.opa x.opb n p) hm8 hp8 hi hj
  exact (hread u).trans (hcongr.trans (hread s).symm)

/-! ### The bits outside the matrices (R103) -/

/-- A packed matrix holds no more than the elements of its region. -/
theorem packMatrix_congr {r c : Nat} {e e' : Nat → Nat → Bool} (h : ∀ i j, i < r → j < c → e i j = e' i j) :
    packMatrix r c e = packMatrix r c e' := by
  refine BitVec.eq_of_getLsbD_eq fun b _ => ?_
  by_cases hb : b / 8 < r ∧ b % 8 < c
  · obtain ⟨hrow, hcol⟩ := hb
    rw [getLsbD_packMatrix, getLsbD_packMatrix, h (b / 8) (c - 1 - b % 8) hrow (by omega)]
  · have hout : r ≤ b / 8 ∨ c ≤ b % 8 := by omega
    rw [getLsbD_packMatrix_of_outside e hout, getLsbD_packMatrix_of_outside e' hout]

theorem matmulResult_congr {a a' b b' : Operand} {m nA nB p : Nat}
    (hA : ∀ i q, i < m → q < nA → a.getLsbD (8 * i + q) = a'.getLsbD (8 * i + q))
    (hB : ∀ k q, k < nB → q < p → b.getLsbD (8 * k + q) = b'.getLsbD (8 * k + q)) :
    matmulResult m nA nB p a b = matmulResult m nA nB p a' b' := by
  by_cases hn : nA = nB
  · subst hn
    rw [matmulResult_self, matmulResult_self]
    refine congrArg Completion.ok (packMatrix_congr fun i j hi hj => ?_)
    exact productElem_congr (fun k hk => hA i _ hi (by omega)) fun k hk => hB k _ hk (by omega)
  · rw [matmulResult_of_ne hn, matmulResult_of_ne hn]

theorem getLsbD_matmulResult_of_outside (nA nB : Nat) {m p q : Nat} (a b : Operand) (h : m ≤ q / 8 ∨ p ≤ q % 8) :
    (matmulResult m nA nB p a b).res.getLsbD q = false := by
  by_cases hn : nA = nB
  · subst hn
    rw [matmulResult_self]
    exact getLsbD_packMatrix_of_outside _ h
  · rw [matmulResult_of_ne hn]
    exact BitVec.getLsbD_zero

/-- Settles O16: both requests end in the same completion. -/
theorem matmulIgnoresUnusedBits : Obligations.MatmulIgnoresUnusedBits := by
  unfold Obligations.MatmulIgnoresUnusedBits
  intro s t t' m nA nB p a a' b b' _ _ _ _ hA hB ht ht'
  have hsame : matmulResult m nA nB p a b = matmulResult m nA nB p a' b' := matmulResult_congr hA hB
  rw [exec_eq_finish] at ht ht'
  cases ht
  cases ht'
  exact ⟨congrArg (fun c => c.status.code) hsame, congrArg Completion.res hsame,
    fun q => getLsbD_matmulResult_of_outside nA nB a b⟩

end Sys2Proof.Machine
end

section
/-! SUPPORT. Products with the identity, with 0, and of H with G transposed (`40_matmul.md` R105). -/

namespace Sys2Proof.Machine

/-! ### The identity -/

/-- The packed `n` × `n` identity: the bits `8i + (n-1-i)` (R105). -/
def IsIdentity (n : Nat) (x : Operand) : Prop := ∀ q, x.getLsbD q = true ↔ ∃ i, i < n ∧ q = 8 * i + (n - 1 - i)

theorem IsIdentity.matrixElem_eq {n i k : Nat} {x : Operand} (h : IsIdentity n x) (hn : n ≤ 8) (hi : i < n) (hk : k < n) :
    matrixElem x n i k = decide (i = k) := by
  have hdiag : (∃ l, l < n ∧ 8 * i + (n - 1 - k) = 8 * l + (n - 1 - l)) ↔ i = k := by
    constructor
    · rintro ⟨l, hl, heq⟩
      omega
    · rintro rfl
      exact ⟨i, hi, rfl⟩
  rw [Bool.eq_iff_iff, decide_eq_true_iff]
  exact (h _).trans hdiag

theorem IsIdentity.unique {n : Nat} {x y : Operand} (hx : IsIdentity n x) (hy : IsIdentity n y) : x = y :=
  BitVec.eq_of_getLsbD_eq fun q _ => Bool.eq_iff_iff.2 ((hx q).trans (hy q).symm)

theorem isIdentity_eight : IsIdentity 8 0x0102040810204080#64 := by
  have hbits : ∀ q : Fin 64, (0x0102040810204080#64).getLsbD q.val = true ↔
      ∃ i, i < 8 ∧ q.val = 8 * i + (8 - 1 - i) := by decide +kernel
  intro q
  by_cases hq : q < 64
  · exact hbits ⟨q, hq⟩
  · rw [BitVec.getLsbD_of_ge _ _ (Nat.not_lt.1 hq)]
    refine ⟨nofun, ?_⟩
    rintro ⟨i, hi, rfl⟩
    omega

/-- Of a sum that one index is selected from, that index's term remains. -/
theorem xorBelow_select {n i : Nat} (hi : i < n) (f : Nat → Bool) : (xorBelow n fun k => decide (i = k) && f k) = f i := by
  induction n with
  | zero => omega
  | succ n ih =>
    rw [xorBelow]
    by_cases hlast : i = n
    · subst hlast
      have hbefore : (xorBelow i fun k => decide (i = k) && f k) = false := by
        rw [← xorBelow_false i]
        exact xorBelow_congr fun k hk => by rw [decide_eq_false hk.ne', Bool.false_and]
      simp [hbefore]
    · rw [ih (by omega), decide_eq_false hlast, Bool.false_and, Bool.xor_false]

theorem IsIdentity.productElem_eq {n i : Nat} {x : Operand} (h : IsIdentity n x) (hn : n ≤ 8) (hi : i < n) (b : Operand)
    (p j : Nat) : productElem x b n p i j = matrixElem b p i j := by
  rw [productElem, ← xorBelow_select hi fun k => matrixElem b p k j]
  exact xorBelow_congr fun k hk => by rw [h.matrixElem_eq hn hi hk]

/-- Reading a matrix and packing it again clears the ignored bits (R53). -/
theorem getLsbD_packMatrix_matrixElem {r c : Nat} (hr : r ≤ 8) (x : Operand) (q : Nat) :
    (packMatrix r c (matrixElem x c)).getLsbD q = (decide (q / 8 < r) && decide (q % 8 < c) && x.getLsbD q) := by
  rw [getLsbD_packMatrix, matrixElem]
  by_cases hq : q / 8 < r ∧ q % 8 < c
  · obtain ⟨hrow, hcol⟩ := hq
    have hin : q < 64 := by omega
    have hback : 8 * (q / 8) + (c - 1 - (c - 1 - q % 8)) = q := by omega
    rw [hback, decide_eq_true hin, Bool.true_and]
  · rw [← Bool.decide_and, decide_eq_false hq, Bool.false_and, Bool.false_and, Bool.and_false]

/-! ### Products that are 0 -/

theorem packMatrix_eq_zero {r c : Nat} {e : Nat → Nat → Bool} (h : ∀ i j, i < r → j < c → e i j = false) :
    packMatrix r c e = 0#64 := by
  have hzero : packMatrix r c (fun _ _ => false) = 0#64 :=
    BitVec.eq_of_getLsbD_eq fun b _ => by simp [getLsbD_packMatrix]
  exact (packMatrix_congr h).trans hzero

@[simp] theorem matrixElem_zero (c i j : Nat) : matrixElem 0#64 c i j = false := by simp [matrixElem]

theorem productElem_of_zero {a b : Operand} (h : a = 0#64 ∨ b = 0#64) (n p i j : Nat) :
    productElem a b n p i j = false := by
  rw [productElem, ← xorBelow_false n]
  refine xorBelow_congr fun k _ => ?_
  obtain rfl | rfl := h
  · rw [matrixElem_zero, Bool.false_and]
  · rw [matrixElem_zero, Bool.and_false]

/-- The 7×4 matrix G^T, packed: element `(i,j)` is position `i` of row `j` of G. -/
def packedGTransposed : Operand :=
  packMatrix 7 4 fun i j => (CodeTables.default.grow.toList.getD j 0#7).getLsbD (6 - i)

theorem packedGTransposed_eq : packedGTransposed = 0x0001020408070B0D#64 := by decide +kernel

theorem CodeTables.Annihilates.parity_rows {t : CodeTables} (h : t.Annihilates) {i j : Nat} (hi : i < 3) (hj : j < 4) :
    parity (t.hrow.toList.getD i 0#7 &&& t.grow.toList.getD j 0#7) = false := by
  simpa [hi, hj] using h ⟨i, hi⟩ ⟨j, hj⟩

/-- An element of H · G^T is the parity of a row of H and a row of G, which R30 says is 0. -/
theorem productElem_packedH_packedGTransposed {i j : Nat} (hi : i < 3) (hj : j < 4) :
    productElem packedH packedGTransposed 7 4 i j = false := by
  obtain ⟨-, hann, -⟩ := CodeTables.default_admissible
  rw [← hann.parity_rows hi hj, parity_eq_xorBelow_positions]
  refine xorBelow_congr fun k hk => ?_
  rw [packedH, packedGTransposed, matrixElem_packMatrix _ (by decide) (by decide) hi hk,
    matrixElem_packMatrix _ (by decide) (by decide) hk hj, BitVec.getLsbD_and]

/-- Settles O17: an identity row selects one row of B, a zero operand makes every term 0, and R30 makes every element of
H · G^T 0. -/
theorem matmulIdentities : Obligations.MatmulIdentities := by
  unfold Obligations.MatmulIdentities
  refine ⟨fun s n p hn hp hid => ?identity, fun ident hid => IsIdentity.unique hid isIdentity_eight,
    fun s m n p _ _ _ hzero => ?zero, packedH_eq, packedGTransposed_eq, fun s ha hb => ?transposed⟩
  case identity =>
    have hid : IsIdentity n s.opa := hid
    have hn8 := le_eight_of_dimOk hn
    refine ⟨_, exec_matmul_self n n p s, fun q => ?_⟩
    rw [packMatrix_congr fun i j hi _ => hid.productElem_eq hn8 hi s.opb p j]
    exact getLsbD_packMatrix_matrixElem hn8 s.opb q
  case zero =>
    rw [exec_matmul_self, packMatrix_eq_zero fun i j _ _ => productElem_of_zero hzero n p i j]
  case transposed =>
    rw [exec_matmul_self, ha, hb, ← packedH_eq, ← packedGTransposed_eq,
      packMatrix_eq_zero fun i j => productElem_packedH_packedGTransposed]

end Sys2Proof.Machine
end

section
/-! SUPPORT. The codeword as a GF(2) sum of rows of G, and what ENC and ENCS complete with (`41_encoder.md`
R111-R116). -/

namespace Sys2Proof.Machine

/-! ### The codeword as a sum of rows (R111) -/

/-- The codeword is the XOR of the rows of G that the data bits select. -/
theorem CodeTables.codeword_eq_xor_rows (t : CodeTables) (v : Nibble) : t.codeword v =
    (if v.getLsbD 3 then t.grow[0] else 0#7) ^^^ (if v.getLsbD 2 then t.grow[1] else 0#7) ^^^
      (if v.getLsbD 1 then t.grow[2] else 0#7) ^^^ (if v.getLsbD 0 then t.grow[3] else 0#7) := by
  have hterm (c : Bool) (cw row : Codeword) : (if c then cw ^^^ row else cw) = cw ^^^ if c then row else 0#7 := by
    cases c <;> simp
  have hrows : List.finRange 4 = [0, 1, 2, 3] := rfl
  simp only [CodeTables.codeword, hrows, List.foldl, hterm, BitVec.zero_xor]
  rfl

/-- A map that respects XOR takes a codeword to the XOR of the images of the selected rows. -/
theorem CodeTables.map_codeword {w : Nat} (t : CodeTables) (v : Nibble) {f : Codeword → BitVec w}
    (hxor : ∀ x y, f (x ^^^ y) = f x ^^^ f y) : f (t.codeword v) =
      (if v.getLsbD 3 then f t.grow[0] else 0#w) ^^^ (if v.getLsbD 2 then f t.grow[1] else 0#w) ^^^
        (if v.getLsbD 1 then f t.grow[2] else 0#w) ^^^ (if v.getLsbD 0 then f t.grow[3] else 0#w) := by
  have hzero : f 0#7 = 0#w := by simpa using hxor 0#7 0#7
  simp only [t.codeword_eq_xor_rows, hxor, apply_ite f, hzero]

/-! ### ENC and ENCS (R112, R113) -/

theorem encodeWith_of_le (form : Codeword → Operand) (t : CodeTables) {v : Operand} (hv : v.toNat ≤ 15) :
    encodeWith form t v = .ok (form (t.codeword (v.extractLsb' 0 4))) := if_neg (Nat.not_lt.2 hv)

/-- ENC finishes with the codeword of the low nibble. -/
theorem exec_enc_of_le {s : State} (hv : s.opa.toNat ≤ 15) :
    exec .enc s = .next (s.finish .ok ((s.rom.codeword (s.opa.extractLsb' 0 4)).setWidth 64)) := by
  rw [exec_eq_finish, perform, encResult, encodeWith_of_le _ _ hv]
  rfl

/-- ENCS finishes with the characters of that codeword. -/
theorem exec_encs_of_le {s : State} (hv : s.opa.toNat ≤ 15) :
    exec .encs s = .next (s.finish .ok (renderCodeword (s.rom.codeword (s.opa.extractLsb' 0 4)))) := by
  rw [exec_eq_finish, perform, encsResult, encodeWith_of_le _ _ hv]
  rfl

theorem getLsbD_lowNibble (v : Operand) {q : Nat} (hq : q < 4) : (v.extractLsb' 0 4).getLsbD q = v.getLsbD q := by
  rw [BitVec.getLsbD_extractLsb', decide_eq_true hq, Bool.true_and, Nat.zero_add]

/-- Settles O18: the sum of the selected rows, read bit by bit, is the data row times G. -/
theorem encWritesTheCodeword : Obligations.EncWritesTheCodeword := by
  unfold Obligations.EncWritesTheCodeword
  intro s hv
  refine ⟨_, exec_enc_of_le hv, ?rows, fun j _ => ?bits⟩
  case rows =>
    simp only [CodeTables.codeword_eq_xor_rows, getLsbD_lowNibble, Nat.reduceLT]
  case bits =>
    rw [CodeTables.getLsbD_codeword]
    exact xorBelow_congr fun k _ => by rw [getLsbD_lowNibble _ (by omega)]

/-- Rendering writes the characters of the codeword and leaves byte 7 at 0x00 (R55). -/
theorem spellsCodeword_renderCodeword (cw : Codeword) : SpellsCodeword (renderCodeword cw) cw := by
  refine ⟨fun k hk => ?_, byteOf_packString _ 7 (by decide)⟩
  rw [renderCodeword, byteOf_packString _ k (by omega)]
  simp [hk, bitChar]

/-- Settles O19: what ENCS writes is the rendering of the codeword, which spells it. -/
theorem encsWritesTheCharacters : Obligations.EncsWritesTheCharacters := by
  unfold Obligations.EncsWritesTheCharacters
  intro s hv
  rw [BitVec.setWidth_eq_extractLsb' (by decide)]
  exact ⟨_, exec_encs_of_le hv, spellsCodeword_renderCodeword _⟩

/-! ### Codewords under admissible tables (R115, R116) -/

theorem nibble_eq_xor_bits (v : Nibble) :
    (if v.getLsbD 3 then 0b1000#4 else 0#4) ^^^ (if v.getLsbD 2 then 0b0100#4 else 0#4) ^^^
      (if v.getLsbD 1 then 0b0010#4 else 0#4) ^^^ (if v.getLsbD 0 then 0b0001#4 else 0#4) = v := by
  decide +revert

theorem CodeTables.Systematic.lowNibble_codeword {t : CodeTables} (h : t.Systematic) (v : Nibble) :
    (t.codeword v).extractLsb' 0 4 = v := by
  have h0 : t.grow[0].extractLsb' 0 4 = 0b1000#4 := h 0
  have h1 : t.grow[1].extractLsb' 0 4 = 0b0100#4 := h 1
  have h2 : t.grow[2].extractLsb' 0 4 = 0b0010#4 := h 2
  have h3 : t.grow[3].extractLsb' 0 4 = 0b0001#4 := h 3
  rw [t.map_codeword v fun _ _ => BitVec.extractLsb'_xor, h0, h1, h2, h3, nibble_eq_xor_bits]

/-- Settles O22: taking a field of a word respects XOR, and a systematic G has the four unit vectors as low nibbles. -/
theorem codewordIsSystematic : Obligations.CodewordIsSystematic := by
  unfold Obligations.CodewordIsSystematic
  rintro t v ⟨hsys, -, -⟩
  exact ⟨hsys.lowNibble_codeword v, t.map_codeword v fun _ _ => BitVec.extractLsb'_xor⟩

/-- The syndrome is linear, and every row of G has syndrome 0 (R30). -/
theorem CodeTables.Annihilates.syndrome_codeword {t : CodeTables} (h : t.Annihilates) (v : Nibble) :
    t.syndrome (t.codeword v) = 0#3 := by
  have h0 : t.syndrome t.grow[0] = 0#3 := h.syndrome_row 0
  have h1 : t.syndrome t.grow[1] = 0#3 := h.syndrome_row 1
  have h2 : t.syndrome t.grow[2] = 0#3 := h.syndrome_row 2
  have h3 : t.syndrome t.grow[3] = 0#3 := h.syndrome_row 3
  rw [t.map_codeword v t.syndrome_xor, h0, h1, h2, h3]
  simp only [ite_self, BitVec.xor_self]

/-- Settles O23: admissible tables annihilate every row of G. -/
theorem encoderOutputHasZeroSyndrome : Obligations.EncoderOutputHasZeroSyndrome := by
  unfold Obligations.EncoderOutputHasZeroSyndrome
  rintro t v ⟨-, hann, -⟩
  exact hann.syndrome_codeword v

/-! ### The default tables (R114) -/

theorem execRequest_enc (t : CodeTables) (a b : Operand) : execRequest t ⟨0x00000002#32, a, b⟩ = encResult t a :=
  execRequest_of_instr (i := .enc) rfl t a b

theorem execRequest_encs (t : CodeTables) (a b : Operand) : execRequest t ⟨0x00000003#32, a, b⟩ = encsResult t a :=
  execRequest_of_instr (i := .encs) rfl t a b

/-- Settles O21: neither operation reads OPB, which leaves the sixteen rows of the table to evaluate, as one
conjunction (`List.Forall`). -/
theorem defaultCodewordTable : Obligations.DefaultCodewordTable := by
  unfold Obligations.DefaultCodewordTable
  simp only [execRequest_enc, execRequest_encs, forall_const]
  rw [← List.forall_iff_forall_mem]
  decide

end Sys2Proof.Machine
end

section
/-! SUPPORT. What SYN, CORR, DEC and DECS complete with when the syndrome is 0 or has a SYNTAB entry (`42_decoder.md`
R121-R132). -/

namespace Sys2Proof.Machine

/-- Settles O24: the bits of the syndrome are row parities, summed position by position. -/
theorem syndromeIsParityCheckProduct : Obligations.SyndromeIsParityCheckProduct := by
  unfold Obligations.SyndromeIsParityCheckProduct
  intro t r i hi
  have hparity := t.getLsbD_syndrome r hi
  refine ⟨?_, hparity⟩
  rw [hparity, parity_eq_xorBelow_positions]
  exact xorBelow_congr fun _ _ => BitVec.getLsbD_and

/-! ### From the operand to the completion (R120-R125) -/

/-- A 7-bit word is a well-formed binary operand (R121). -/
@[simp] theorem parseBinary_setWidth (r : Codeword) : parseBinary (r.setWidth 64) = some r := by
  have hhigh : (r.setWidth 64).extractLsb' 7 57 = 0#57 := by
    ext i hi
    simp
  have hlow : (r.setWidth 64).extractLsb' 0 7 = r := by
    ext i hi
    simp [hi]
    omega
  rw [parseBinary, if_pos hhigh, hlow]

/-- What the syndrome decoder reports of `r` where the lookup of R125 does not miss. -/
def CodeTables.report (t : CodeTables) (r : Codeword) : ErrorInfo where
  synd := t.syndrome r
  err := decide (t.syndrome r ≠ 0#3)
  pos := if t.syndrome r = 0#3 then 7#3 else (t.lookup (t.syndrome r)).pos

/-- The lookup of R125 misses only on a nonzero syndrome without an entry. -/
theorem locateError_eq_report {t : CodeTables} {r : Codeword}
    (h : t.syndrome r = 0#3 ∨ (t.lookup (t.syndrome r)).valid = true) : locateError t r = some (t.report r) := by
  by_cases hs : t.syndrome r = 0#3
  · simp [CodeTables.report, hs]
  · simp [CodeTables.report, locateError_of_hit hs (h.resolve_left hs), hs]

theorem decodeWith_of_locateError {t : CodeTables} {r : Codeword} {e : ErrorInfo} (h : locateError t r = some e)
    (payload : Codeword → ErrorInfo → Codeword) :
    decodeWith payload t (some r) = .ok (decodeInfo e (payload r e)) := by
  simp [decodeWith, h]

theorem decodeWith_eq_report {t : CodeTables} {r : Codeword}
    (h : t.syndrome r = 0#3 ∨ (t.lookup (t.syndrome r)).valid = true) (payload : Codeword → ErrorInfo → Codeword) :
    decodeWith payload t (some r) = .ok (decodeInfo (t.report r) (payload r (t.report r))) :=
  decodeWith_of_locateError (locateError_eq_report h) payload

theorem exec_of_perform_ok {i : Instr} {s : State} {v : Operand} (h : perform s.rom i s.opa s.opb = .ok v) :
    exec i s = .next (s.finish .ok v) := by
  rw [exec_eq_finish, h]
  rfl

/-- Settles O25: the report is packed by `decodeInfo`, with the payload 0 of SYN. -/
theorem synReportsSyndromeAndPosition : Obligations.SynReportsSyndromeAndPosition := by
  unfold Obligations.SynReportsSyndromeAndPosition
  intro s r hopa h
  have hperform : perform s.rom .syn s.opa s.opb = .ok (decodeInfo (s.rom.report r) 0#7) := by
    rw [perform, synResult, hopa, parseBinary_setWidth, decodeWith_eq_report h, synPayload]
  exact ⟨_, exec_of_perform_ok hperform, decodeInfo_layout _ _ _ _⟩

/-! ### The corrected word (R127) -/

theorem getLsbD_positionMask {p q : Nat} (hp : p < 7) (hq : q < 7) :
    (positionMask p).getLsbD (6 - q) = decide (q = p) := by
  have key : ∀ p q : Fin 7, (positionMask p.val).getLsbD (6 - q.val) = decide (q.val = p.val) := by decide
  exact key ⟨p, hp⟩ ⟨q, hq⟩

theorem corrected_of_no_error (r : Codeword) {e : ErrorInfo} (h : e.err = false) : corrected r e = r := by
  simp [corrected, h]

theorem corrected_of_error (r : Codeword) {e : ErrorInfo} (h : e.err = true) (hpos : e.pos ≠ 7#3) :
    corrected r e = r ^^^ positionMask e.pos.toNat := by
  simp [corrected, h, hpos, positionMask]

theorem corrected_report_of_zero {t : CodeTables} {r : Codeword} (hs : t.syndrome r = 0#3) :
    corrected r (t.report r) = r :=
  corrected_of_no_error r (by simp [CodeTables.report, hs])

/-- With a position of the word in the entry, the correction flips that position and no other. -/
theorem getLsbD_corrected_report {t : CodeTables} {r : Codeword} (hs : t.syndrome r ≠ 0#3)
    (hpos : (t.lookup (t.syndrome r)).pos ≠ 7#3) {q : Nat} (hq : q < 7) :
    (corrected r (t.report r)).getLsbD (6 - q) =
      (r.getLsbD (6 - q) ^^ decide (q = (t.lookup (t.syndrome r)).pos.toNat)) := by
  have herr : (t.report r).err = true := by simp [CodeTables.report, hs]
  have hreport : (t.report r).pos = (t.lookup (t.syndrome r)).pos := by simp [CodeTables.report, hs]
  have hlt : (t.lookup (t.syndrome r)).pos.toNat < 7 := by bv_omega
  rw [corrected_of_error r herr (hreport ▸ hpos), hreport, BitVec.getLsbD_xor, getLsbD_positionMask hlt hq]

/-- Settles O26: the payload of CORR is the corrected word. -/
theorem corrFlipsThePositionFound : Obligations.CorrFlipsThePositionFound := by
  unfold Obligations.CorrFlipsThePositionFound
  intro s r hopa h
  have hperform : perform s.rom .corr s.opa s.opb =
      .ok (decodeInfo (s.rom.report r) (corrected r (s.rom.report r))) := by
    rw [perform, corrResult, hopa, parseBinary_setWidth, decodeWith_eq_report h]
  exact ⟨_, _, exec_of_perform_ok hperform, decodeInfo_layout _ _ _ _, corrected_report_of_zero,
    fun hs hpos _ => getLsbD_corrected_report hs hpos⟩

/-- Settles O27: both operand forms are read as the same word, and DATA is the low nibble of the corrected word. -/
theorem decAndDecsGiveTheNibble : Obligations.DecAndDecsGiveTheNibble := by
  unfold Obligations.DecAndDecsGiveTheNibble
  intro s u r hopa hspells hrom h
  have hdec : perform s.rom .dec s.opa s.opb =
      .ok (decodeInfo (s.rom.report r) (decPayload r (s.rom.report r))) := by
    rw [perform, decResult, hopa, parseBinary_setWidth, decodeWith_eq_report h]
  have hdecs : perform u.rom .decs u.opa u.opb =
      .ok (decodeInfo (s.rom.report r) (decPayload r (s.rom.report r))) := by
    rw [perform, decsResult, (parseChars_eq_some_iff_spellsCodeword _ _).2 hspells, hrom, decodeWith_eq_report h]
  refine ⟨_, _, exec_of_perform_ok hdec, exec_of_perform_ok hdecs, decodeInfo_layout _ _ _ _,
    fun hs => ?_, fun hs hpos q hq3 hq7 => ?_⟩
  · rw [corrected_report_of_zero hs, BitVec.setWidth_eq_extractLsb' (by decide)]
  · have hlow : 6 - q < 4 := by omega
    rw [BitVec.getLsbD_extractLsb', decide_eq_true hlow, Bool.true_and, Nat.zero_add,
      getLsbD_corrected_report hs hpos hq7]

end Sys2Proof.Machine
end

section
/-! SUPPORT. Decoding a codeword with at most one position in error, under admissible tables, and that these are all
128 words (`42_decoder.md` R131-R134). -/

namespace Sys2Proof.Machine

/-! ### The syndrome of a codeword with an error (R134) -/

theorem CodeTables.Annihilates.syndrome_codeword_xor {t : CodeTables} (h : t.Annihilates) (v : Nibble) (e : Codeword) :
    t.syndrome (t.codeword v ^^^ e) = t.syndrome e := by
  rw [t.syndrome_xor, h.syndrome_codeword, BitVec.zero_xor]

theorem CodeTables.Annihilates.syndrome_codeword_xor_positionMask {t : CodeTables} (h : t.Annihilates) (v : Nibble)
    {p : Nat} (hp : p < 7) : t.syndrome (t.codeword v ^^^ positionMask p) = t.column p :=
  (h.syndrome_codeword_xor v _).trans (t.syndrome_positionMask ⟨p, hp⟩)

/-- Settles O34: the syndrome is linear and 0 on codewords, and that of one position is its column. -/
theorem syndromeDependsOnTheErrorOnly : Obligations.SyndromeDependsOnTheErrorOnly := by
  unfold Obligations.SyndromeDependsOnTheErrorOnly
  constructor
  · rintro t v ⟨-, hann, -⟩
    exact ⟨hann.syndrome_codeword_xor v, fun _ => hann.syndrome_codeword_xor_positionMask v⟩
  · intro v
    obtain ⟨-, hann, -⟩ := CodeTables.default_admissible
    rw [← CodeTables.default_columns]
    exact List.map_congr_left fun _ hp => hann.syndrome_codeword_xor_positionMask v (List.mem_range.1 hp)

/-! ### The error patterns of weight at most 1, and what the decoder reports of each -/

/-- The word with the given position in error, or none. -/
def errorPattern : Option (Fin 7) → Codeword
  | none => 0#7
  | some p => positionMask p

/-- What the decoder has to report of a word with this error (R124, R125). -/
def CodeTables.reportOf (t : CodeTables) : Option (Fin 7) → ErrorInfo
  | none => ⟨0#3, false, 7#3⟩
  | some p => ⟨t.column p, true, BitVec.ofNat 3 p⟩

theorem CodeTables.Annihilates.syndrome_received {t : CodeTables} (h : t.Annihilates) (v : Nibble)
    (e : Option (Fin 7)) : t.syndrome (t.codeword v ^^^ errorPattern e) = t.columnOrZero e := by
  rw [h.syndrome_codeword_xor]
  cases e with
  | none => exact t.syndrome_zero
  | some p => exact t.syndrome_positionMask p

theorem CodeTables.Admissible.locateError_received {t : CodeTables} (ht : t.Admissible) (v : Nibble)
    (e : Option (Fin 7)) : locateError t (t.codeword v ^^^ errorPattern e) = some (t.reportOf e) := by
  obtain ⟨-, hann, -, hne, hlookup, -⟩ := ht
  have hs := hann.syndrome_received v e
  cases e with
  | none => exact locateError_of_zero hs
  | some p =>
    have hs : t.syndrome (t.codeword v ^^^ errorPattern (some p)) = t.column p := hs
    rw [locateError_of_hit (hs ▸ hne p) (by rw [hs, hlookup]), hs, hlookup]
    rfl

/-- The correction undoes the error. -/
theorem CodeTables.corrected_received (t : CodeTables) (cw : Codeword) (e : Option (Fin 7)) :
    corrected (cw ^^^ errorPattern e) (t.reportOf e) = cw := by
  cases e with
  | none => exact (corrected_of_no_error _ rfl).trans BitVec.xor_zero
  | some p =>
    have key : ∀ p : Fin 7, BitVec.ofNat 3 p ≠ 7#3 ∧ (BitVec.ofNat 3 p).toNat = p := by decide
    obtain ⟨hne, hpos⟩ := key p
    rw [corrected_of_error _ rfl hne]
    simp [CodeTables.reportOf, errorPattern, hpos]

theorem CodeTables.Systematic.decPayload_received {t : CodeTables} (h : t.Systematic) (v : Nibble)
    (e : Option (Fin 7)) : decPayload (t.codeword v ^^^ errorPattern e) (t.reportOf e) = v.setWidth 7 := by
  rw [decPayload, t.corrected_received, h.lowNibble_codeword]

theorem execRequest_syn (t : CodeTables) (r : Codeword) (b : Operand) :
    execRequest t ⟨0x00000004#32, r.setWidth 64, b⟩ = decodeWith synPayload t (some r) := by
  rw [execRequest_of_instr (i := .syn) rfl, perform, synResult, parseBinary_setWidth]

theorem execRequest_corr (t : CodeTables) (r : Codeword) (b : Operand) :
    execRequest t ⟨0x00000005#32, r.setWidth 64, b⟩ = decodeWith corrected t (some r) := by
  rw [execRequest_of_instr (i := .corr) rfl, perform, corrResult, parseBinary_setWidth]

theorem execRequest_dec (t : CodeTables) (r : Codeword) (b : Operand) :
    execRequest t ⟨0x00000006#32, r.setWidth 64, b⟩ = decodeWith decPayload t (some r) := by
  rw [execRequest_of_instr (i := .dec) rfl, perform, decResult, parseBinary_setWidth]

theorem execRequest_decs_of_spellsCodeword (t : CodeTables) {x : Operand} {r : Codeword} (h : SpellsCodeword x r)
    (b : Operand) : execRequest t ⟨0x00000007#32, x, b⟩ = decodeWith decPayload t (some r) := by
  rw [execRequest_of_instr (i := .decs) rfl, perform, decsResult, (parseChars_eq_some_iff_spellsCodeword _ _).2 h]

section
variable {t : CodeTables} (ht : t.Admissible) (v : Nibble) (e : Option (Fin 7))
include ht

theorem CodeTables.Admissible.decodeWith_received (payload : Codeword → ErrorInfo → Codeword) :
    decodeWith payload t (some (t.codeword v ^^^ errorPattern e)) =
      .ok (decodeInfo (t.reportOf e) (payload (t.codeword v ^^^ errorPattern e) (t.reportOf e))) :=
  decodeWith_of_locateError (ht.locateError_received v e) payload

/-- CORR gives back the codeword that was sent. -/
theorem CodeTables.Admissible.corr_received (b : Operand) :
    execRequest t ⟨0x00000005#32, (t.codeword v ^^^ errorPattern e).setWidth 64, b⟩ =
      .ok (decodeInfo (t.reportOf e) (t.codeword v)) := by
  rw [execRequest_corr, ht.decodeWith_received, t.corrected_received]

theorem CodeTables.Admissible.decodeWith_decPayload_received :
    decodeWith decPayload t (some (t.codeword v ^^^ errorPattern e)) =
      .ok (decodeInfo (t.reportOf e) (v.setWidth 7)) := by
  have ⟨hsys, _, _⟩ := ht
  rw [ht.decodeWith_received, hsys.decPayload_received]

/-- DEC gives back the nibble that was sent. -/
theorem CodeTables.Admissible.dec_received (b : Operand) :
    execRequest t ⟨0x00000006#32, (t.codeword v ^^^ errorPattern e).setWidth 64, b⟩ =
      .ok (decodeInfo (t.reportOf e) (v.setWidth 7)) := by
  rw [execRequest_dec, ht.decodeWith_decPayload_received]

end

/-! ### No error, and one error (R133) -/

theorem CodeTables.decodeInfo_reportOf_some (t : CodeTables) (p : Fin 7) (payload : Codeword) :
    DecodeLayout (decodeInfo (t.reportOf (some p)) payload) payload true (t.column p) (BitVec.ofNat 3 p) :=
  decodeInfo_layout _ _ _ _

theorem decodeInfo_no_error (payload : Codeword) :
    decodeInfo ⟨0#3, false, 7#3⟩ payload = 0x7000#64 ||| payload.setWidth 64 := by
  decide +revert +kernel

theorem setWidth_lowNibble_of_le {v : Operand} (hv : v.toNat ≤ 15) :
    ((v.extractLsb' 0 4).setWidth 7).setWidth 64 = v := by
  apply BitVec.eq_of_toNat_eq
  simp
  omega

/-- Settles O30: a codeword is a received word without error, and ENC and ENCS give it in the two operand forms. -/
theorem decodingAnEncodedNibbleReturnsIt : Obligations.DecodingAnEncodedNibbleReturnsIt := by
  unfold Obligations.DecodingAnEncodedNibbleReturnsIt
  intro t v b ht hv
  have hcw : t.codeword (v.extractLsb' 0 4) = t.codeword (v.extractLsb' 0 4) ^^^ errorPattern none :=
    BitVec.xor_zero.symm
  have henc : execRequest t ⟨0x00000002#32, v, b⟩ = .ok ((t.codeword (v.extractLsb' 0 4)).setWidth 64) := by
    rw [execRequest_enc, encResult, encodeWith_of_le _ t hv]
  have hencs : execRequest t ⟨0x00000003#32, v, b⟩ = .ok (renderCodeword (t.codeword (v.extractLsb' 0 4))) := by
    rw [execRequest_encs, encsResult, encodeWith_of_le _ t hv]
  have hdec : decodeWith decPayload t (some (t.codeword (v.extractLsb' 0 4))) = .ok (0x7000#64 ||| v) := by
    rw [hcw, ht.decodeWith_decPayload_received, CodeTables.reportOf, decodeInfo_no_error,
      setWidth_lowNibble_of_le hv]
  refine ⟨_, _, henc, hencs, ?syn, ?corr, ?dec, ?decs⟩
  case syn =>
    rw [execRequest_syn, hcw, ht.decodeWith_received, synPayload, CodeTables.reportOf, decodeInfo_no_error]
    rfl
  case corr =>
    rw [hcw, ht.corr_received, ← hcw, CodeTables.reportOf, decodeInfo_no_error]
    rfl
  case dec => exact (execRequest_dec t _ b).trans hdec
  case decs => exact (execRequest_decs_of_spellsCodeword t (spellsCodeword_renderCodeword _) b).trans hdec

/-- Settles O31: the received word has the one error at position `p`. -/
theorem everySingleBitErrorIsCorrected : Obligations.EverySingleBitErrorIsCorrected := by
  unfold Obligations.EverySingleBitErrorIsCorrected
  intro t v p b ht hp
  have hdec := ht.dec_received v (some ⟨p, hp⟩) b
  have hcorr := ht.corr_received v (some ⟨p, hp⟩) b
  exact ⟨⟨_, hdec, t.decodeInfo_reportOf_some _ _⟩, ⟨_, hcorr, t.decodeInfo_reportOf_some _ _⟩⟩

/-! ### All 128 words (R133) -/

theorem CodeTables.Systematic.codeword_injective {t : CodeTables} (h : t.Systematic) :
    Function.Injective t.codeword :=
  Function.LeftInverse.injective (g := BitVec.extractLsb' 0 4) h.lowNibble_codeword

/-- The syndrome tells the error and the low nibble then tells the codeword, so the 16 · 8 words are distinct. -/
theorem CodeTables.Admissible.received_bijective {t : CodeTables} (ht : t.Admissible) :
    Function.Bijective fun x : Nibble × Option (Fin 7) => t.codeword x.1 ^^^ errorPattern x.2 := by
  obtain ⟨hsys, hann, hsyntab⟩ := ht
  rw [Fintype.bijective_iff_injective_and_card]
  refine ⟨?_, rfl⟩
  rintro ⟨v, e⟩ ⟨w, f⟩ h
  have herr : e = f := hsyntab.columnOrZero_injective <| by
    simpa only [hann.syndrome_received] using congrArg t.syndrome h
  subst herr
  have hcw : t.codeword v = t.codeword w := by simpa using h
  rw [hsys.codeword_injective hcw]

theorem CodeTables.Admissible.exists_received {t : CodeTables} (ht : t.Admissible) (r : Codeword) :
    ∃ (v : Nibble) (e : Option (Fin 7)), r = t.codeword v ^^^ errorPattern e := by
  obtain ⟨⟨v, e⟩, h⟩ := ht.received_bijective.surjective r
  exact ⟨v, e, h.symm⟩

/-- Under admissible tables no 7-bit word is refused. -/
theorem CodeTables.Admissible.decodeWith_status_eq_ok {t : CodeTables} (ht : t.Admissible)
    (payload : Codeword → ErrorInfo → Codeword) (r : Codeword) : (decodeWith payload t (some r)).status = .ok := by
  obtain ⟨v, e, rfl⟩ := ht.exists_received r
  rw [ht.decodeWith_received, Completion.ok_status]

/-- The error patterns numbered from 0, with 7 for no error, as POS numbers them (R124). -/
theorem errorPattern_finSuccEquivLast (i : Fin 8) :
    errorPattern (finSuccEquivLast i) = if i.val = 7 then 0#7 else positionMask i.val := by
  decide +revert

/-- Settles O32: the words are counted, every one is a codeword with at most one error, and the columns of H are the
nonzero syndromes. -/
theorem everySevenBitWordDecodes : Obligations.EverySevenBitWordDecodes := by
  unfold Obligations.EverySevenBitWordDecodes
  intro t ht
  refine ⟨?words, ?ok, ?columns⟩
  case words =>
    simp only [← errorPattern_finSuccEquivLast]
    simpa only [Function.comp_def, Prod.map_fst, Prod.map_snd, id] using
      ht.received_bijective.comp (Function.bijective_id.prodMap finSuccEquivLast.bijective)
  case ok =>
    intro r b
    simp [execRequest_syn, execRequest_corr, execRequest_dec, ht.decodeWith_status_eq_ok]
  case columns =>
    intro synd hs
    obtain ⟨-, -, hsyntab⟩ := ht
    obtain ⟨p, rfl⟩ := hsyntab.exists_column hs
    obtain ⟨hinj, -, hlookup, -⟩ := hsyntab
    exact ⟨p, hlookup p, fun q => ⟨hinj q p, fun h => h ▸ rfl⟩⟩

/-- Settles O35: of the 128 words, those without error are the ones with syndrome 0, and CORR removes the error. -/
theorem syndromeZeroIffSomeCodeword : Obligations.SyndromeZeroIffSomeCodeword := by
  unfold Obligations.SyndromeZeroIffSomeCodeword
  intro t r ht
  have ⟨_, hann, hsyntab⟩ := ht
  refine ⟨⟨?_, ?_⟩, ?_⟩
  · intro hs
    obtain ⟨v, e, rfl⟩ := ht.exists_received r
    have hnone : e = none := hsyntab.columnOrZero_injective ((hann.syndrome_received v e).symm.trans hs)
    exact ⟨v, hnone ▸ BitVec.xor_zero⟩
  · rintro ⟨v, rfl⟩
    exact hann.syndrome_codeword v
  · intro b
    obtain ⟨v, e, rfl⟩ := ht.exists_received r
    obtain ⟨hpayload, -⟩ := decodeInfo_layout (t.reportOf e).synd (t.reportOf e).err (t.reportOf e).pos (t.codeword v)
    exact ⟨v, by rw [ht.corr_received]; exact hpayload⟩

/-! ### Two errors (R131) -/

theorem dataField_decodeInfo (e : ErrorInfo) (data : Nibble) : dataField (decodeInfo e (data.setWidth 7)) = data := by
  ext i hi
  have hi7 : i < 7 := by omega
  simp [dataField, getLsbD_decodeInfo, hi, hi7]

/-- Two positions in error differ from at most one, by the bit of the position that is not the third one. -/
theorem positionMask_xor_ne_positionMask {a b c : Nat} (ha : a < 7) (hb : b < 7) (hc : c < 7) (hab : a ≠ b)
    (hac : a ≠ c) : positionMask a ^^^ positionMask b ≠ positionMask c := by
  intro h
  have hbit := congrArg (fun w => w.getLsbD (6 - a)) h
  simp [getLsbD_positionMask, ha, hb, hc, hab, hac] at hbit

/-- A word with two errors is another codeword with a third position in error. -/
theorem CodeTables.Admissible.two_errors {t : CodeTables} (ht : t.Admissible) (v : Nibble) {a b : Fin 7}
    (hab : a ≠ b) : ∃ (w : Nibble) (c : Fin 7), w ≠ v ∧ c ≠ a ∧ c ≠ b ∧ t.column c = t.column a ^^^ t.column b ∧
      t.codeword v ^^^ positionMask a ^^^ positionMask b = t.codeword w ^^^ errorPattern (some c) := by
  have ⟨_, hann, hinj, hne, _⟩ := ht
  obtain ⟨w, e, hr⟩ := ht.exists_received (t.codeword v ^^^ positionMask a ^^^ positionMask b)
  have hsynd : t.columnOrZero e = t.column a ^^^ t.column b := by
    rw [← hann.syndrome_received w e, ← hr, t.syndrome_xor, hann.syndrome_codeword_xor_positionMask v a.isLt,
      t.syndrome_positionMask]
  cases e with
  | none => exact absurd (hinj a b (BitVec.xor_eq_zero_iff.1 hsynd.symm)) hab
  | some c =>
    have hsynd : t.column c = t.column a ^^^ t.column b := hsynd
    have hca : c ≠ a := by
      rintro rfl
      exact hne b ((BitVec.xor_right_inj _).1 (hsynd.symm.trans BitVec.xor_zero.symm))
    have hcb : c ≠ b := by
      rintro rfl
      exact hne a ((BitVec.xor_left_inj _).1 (hsynd.symm.trans BitVec.zero_xor.symm))
    refine ⟨w, c, ?_, hca, hcb, hsynd, hr⟩
    rintro rfl
    refine positionMask_xor_ne_positionMask a.isLt b.isLt c.isLt (Fin.val_ne_of_ne hab)
      (Fin.val_ne_of_ne hca.symm) ?_
    simpa [BitVec.xor_assoc, errorPattern] using hr

/-- Settles O33: the decoder removes the third error, and finds the other codeword. -/
theorem doubleBitErrorGivesWrongData : Obligations.DoubleBitErrorGivesWrongData := by
  unfold Obligations.DoubleBitErrorGivesWrongData
  intro t v a b opb ht ha hb hab
  obtain ⟨w, c, hwv, hca, hcb, hcol, hr⟩ := ht.two_errors v (a := ⟨a, ha⟩) (b := ⟨b, hb⟩) (by simpa using hab)
  have ⟨_, _, _, hne, _⟩ := ht
  obtain ⟨-, herr, hsynd, -, hpos, -⟩ := t.decodeInfo_reportOf_some c (w.setWidth 7)
  obtain ⟨hpayload, -⟩ := t.decodeInfo_reportOf_some c (t.codeword w)
  have hposNat : (BitVec.ofNat 3 c).toNat = c := by simp; omega
  have hdec := ht.dec_received w (some c) opb
  have hcorr := ht.corr_received w (some c) opb
  rw [← hr] at hdec hcorr
  refine ⟨_, hdec, herr, hsynd.trans hcol, hsynd ▸ hne c, ?_, ?_, ?_, ?_, _, hcorr, ?_⟩
  · rw [hpos, hposNat]
    exact fun h => hca (Fin.ext h)
  · rw [hpos, hposNat]
    exact fun h => hcb (Fin.ext h)
  · rw [hpos, hposNat]
    exact c.isLt
  · rwa [dataField_decodeInfo]
  · rw [dataField_decodeInfo, hpayload]

end Sys2Proof.Machine
end

section
/-! SUPPORT. What every operation ends in, success or one error with RES = 0, what it leaves as it was, and when each
error is raised (`60_exceptions.md` R140-R149). -/

namespace Sys2Proof.Machine

/-- Settles O41: every branch of a step answers a next state, and every meaning is one `finish`. -/
theorem everyStepAnswersANextState : Obligations.EveryStepAnswersANextState := by
  unfold Obligations.EveryStepAnswersANextState
  exact ⟨exists_step_eq_next, fun i s => ⟨_, exec_eq_finish i s⟩⟩

/-- Settles O42: the one `finish` of an operation writes no field beside the four. -/
theorem operationsWriteOnlyStatAndRes : Obligations.OperationsWriteOnlyStatAndRes := by
  unfold Obligations.OperationsWriteOnlyStatAndRes
  intro i s t h
  rw [exec_eq_finish] at h
  cases h
  exact ⟨rfl, rfl, rfl, rfl, rfl, rfl, rfl, rfl, rfl, rfl⟩

/-! ### The shared paths, branch by branch (R110, R120) -/

theorem encodeWith_of_gt (form : Codeword → Operand) (t : CodeTables) {v : Operand} (hv : 15 < v.toNat) :
    encodeWith form t v = .error .outOfRange := if_pos hv

@[simp] theorem decodeWith_none (payload : Codeword → ErrorInfo → Codeword) (t : CodeTables) :
    decodeWith payload t none = .error .malformedCodeword := rfl

theorem decodeWith_of_miss {t : CodeTables} {r : Codeword} (h : locateError t r = none)
    (payload : Codeword → ErrorInfo → Codeword) : decodeWith payload t (some r) = .error .unmappedSyndrome := by
  simp [decodeWith, h]

/-! ### An error has RES = 0 (R143) -/

/-- `c` is `finish(OK, v)`, or `raise E` with one of the error codes 2 to 6. -/
inductive Completion.OkOrError : Completion → Prop where
  | ok (v : Operand) : OkOrError (.ok v)
  | error {e : Status} (he : 2 ≤ e.code.toNat) : OkOrError (.error e)

theorem Completion.OkOrError.res_eq_zero {c : Completion} (hc : c.OkOrError) (h : c.status ≠ .ok) : c.res = 0#64 := by
  cases hc with
  | ok v => exact absurd rfl h
  | error he => rfl

theorem Completion.OkOrError.two_le_code {c : Completion} (hc : c.OkOrError) (h : c.status ≠ .ok) :
    2 ≤ c.status.code.toNat := by
  cases hc with
  | ok v => exact absurd rfl h
  | error he => exact he

theorem matmulResult_okOrError (m nA nB p : Nat) (a b : Operand) : (matmulResult m nA nB p a b).OkOrError := by
  by_cases h : nA = nB
  · subst h
    rw [matmulResult_self]
    exact .ok _
  · rw [matmulResult_of_ne h]
    exact .error (by decide)

theorem encodeWith_okOrError (form : Codeword → Operand) (t : CodeTables) (v : Operand) :
    (encodeWith form t v).OkOrError := by
  obtain hv | hv := le_or_gt v.toNat 15
  · rw [encodeWith_of_le form t hv]
    exact .ok _
  · rw [encodeWith_of_gt form t hv]
    exact .error (by decide)

/-- Whatever the tables are: a miss is an error too. -/
theorem decodeWith_okOrError (payload : Codeword → ErrorInfo → Codeword) (t : CodeTables) (parsed : Option Codeword) :
    (decodeWith payload t parsed).OkOrError := by
  cases parsed with
  | none => exact .error (by decide)
  | some r =>
    cases h : locateError t r with
    | none =>
      rw [decodeWith_of_miss h]
      exact .error (by decide)
    | some e =>
      rw [decodeWith_of_locateError h]
      exact .ok _

theorem perform_okOrError (t : CodeTables) (i : Instr) (a b : Operand) : (perform t i a b).OkOrError := by
  cases i with
  | matmul m nA nB p => exact matmulResult_okOrError m nA nB p a b
  | enc | encs => exact encodeWith_okOrError _ _ _
  | syn | corr | dec | decs => exact decodeWith_okOrError _ _ _

theorem execRequest_okOrError (t : CodeTables) (r : Request) : (execRequest t r).OkOrError := by
  unfold execRequest
  split
  · exact perform_okOrError _ _ _ _
  · exact .error (by decide)

/-- Settles O43: a completion edge shows what the latched request ends in, legal word or not. -/
theorem errorCompletionHasZeroResult : Obligations.ErrorCompletionHasZeroResult := by
  unfold Obligations.ErrorCompletionHasZeroResult
  intro s t h hstat
  rw [complete_eq_finish] at h
  cases h
  have hc := execRequest_okOrError s.rom s.latched
  have hne : (execRequest s.rom s.latched).status ≠ .ok := fun hok => hstat (congrArg Status.code hok)
  exact ⟨hc.res_eq_zero hne, hc.two_le_code hne, Status.code_toNat_le _⟩

section
variable {i : Instr} {s t : State} (h : exec i s = .next t)
include h

/-- STAT after an operation tells the status it ends in. -/
theorem exec_stat_eq_code_iff (e : Status) : t.stat = e.code ↔ (perform s.rom i s.opa s.opb).status = e := by
  rw [exec_eq_finish] at h
  cases h
  exact Status.code_injective.eq_iff

theorem exec_res_eq_zero (e : Status) (he : e ≠ .ok) (hstat : t.stat = e.code) : t.res = 0#64 := by
  have hstatus := (exec_stat_eq_code_iff h e).1 hstat
  rw [exec_eq_finish] at h
  cases h
  exact (perform_okOrError s.rom i s.opa s.opb).res_eq_zero (hstatus ▸ he)

end

/-! ### OUT_OF_RANGE (R145) -/

/-- MATMUL has one error, DIM_MISMATCH (R144). -/
theorem matmulResult_status_ne (e : Status) (hok : e ≠ .ok) (hdim : e ≠ .dimMismatch) {m nA nB p : Nat}
    {a b : Operand} : (matmulResult m nA nB p a b).status ≠ e := by
  by_cases h : nA = nB
  · subst h
    rw [matmulResult_self]
    exact hok.symm
  · rw [matmulResult_of_ne h]
    exact hdim.symm

theorem encodeWith_status_ne (e : Status) (hok : e ≠ .ok) (hrange : e ≠ .outOfRange) {form : Codeword → Operand}
    {t : CodeTables} {v : Operand} : (encodeWith form t v).status ≠ e := by
  obtain h | h := encodeWith_status form t v
  · exact h ▸ hok.symm
  · exact h ▸ hrange.symm

theorem decodeWith_ne_outOfRange (payload : Codeword → ErrorInfo → Codeword) (t : CodeTables)
    (parsed : Option Codeword) : (decodeWith payload t parsed).status ≠ .outOfRange := by
  obtain h | h | h := decodeWith_status payload t parsed <;> simp [h]

theorem encodeWith_status_eq_outOfRange_iff (form : Codeword → Operand) (t : CodeTables) (v : Operand) :
    (encodeWith form t v).status = .outOfRange ↔ 15 < v.toNat := by
  obtain hv | hv := le_or_gt v.toNat 15
  · simp [encodeWith_of_le form t hv, hv]
  · simp [encodeWith_of_gt form t hv, hv]

/-- The one way to OUT_OF_RANGE. -/
theorem perform_status_eq_outOfRange_iff (t : CodeTables) (i : Instr) (a b : Operand) :
    (perform t i a b).status = .outOfRange ↔ (i = .enc ∨ i = .encs) ∧ 15 < a.toNat := by
  cases i with
  | matmul m nA nB p => exact iff_of_false (matmulResult_status_ne .outOfRange nofun nofun) (by simp)
  | enc | encs => exact (encodeWith_status_eq_outOfRange_iff _ t a).trans (by simp)
  | syn | corr | dec | decs => exact iff_of_false (decodeWith_ne_outOfRange _ _ _) (by simp)

/-- Settles O20: the two encoder operations share the range check, and no other operation raises its error. -/
theorem outOfRangeIsEncoderAboveFifteen : Obligations.OutOfRangeIsEncoderAboveFifteen := by
  unfold Obligations.OutOfRangeIsEncoderAboveFifteen
  intro i s t h
  exact ⟨(exec_stat_eq_code_iff h .outOfRange).trans (perform_status_eq_outOfRange_iff s.rom i s.opa s.opb),
    exec_res_eq_zero h .outOfRange nofun⟩

/-! ### MALFORMED_CODEWORD (R121, R122, R146) -/

theorem parseBinary_eq_none_iff (x : Operand) : parseBinary x = none ↔ x.extractLsb' 7 57 ≠ 0#57 := by
  simp [parseBinary]

theorem parseChars_eq_none_iff (x : Operand) : parseChars x = none ↔
    stringLength x ≠ 7 ∨ ∃ k, k < 7 ∧ byteOf x k ≠ 0x30#8 ∧ byteOf x k ≠ 0x31#8 := by
  simp [parseChars, imp_iff_not_or]

theorem decodeWith_status_eq_malformedCodeword_iff (payload : Codeword → ErrorInfo → Codeword) (t : CodeTables)
    (parsed : Option Codeword) : (decodeWith payload t parsed).status = .malformedCodeword ↔ parsed = none := by
  cases parsed with
  | none => simp
  | some r => cases h : locateError t r with
    | none => simp [decodeWith_of_miss h]
    | some e => simp [decodeWith_of_locateError h]

/-- The one way to MALFORMED_CODEWORD: the operand parse of a decoder operation fails. -/
theorem perform_status_eq_malformedCodeword_iff (t : CodeTables) (i : Instr) (a b : Operand) :
    (perform t i a b).status = .malformedCodeword ↔
      ((i = .syn ∨ i = .corr ∨ i = .dec) ∧ parseBinary a = none) ∨ (i = .decs ∧ parseChars a = none) := by
  cases i with
  | matmul m nA nB p => exact iff_of_false (matmulResult_status_ne .malformedCodeword nofun nofun) (by simp)
  | enc | encs => exact iff_of_false (encodeWith_status_ne .malformedCodeword nofun nofun) (by simp)
  | syn | corr | dec | decs => exact (decodeWith_status_eq_malformedCodeword_iff _ t _).trans (by simp)

/-- Settles O28: the conditions of R146 are those under which the two parses fail. -/
theorem malformedIsABadCodewordOperand : Obligations.MalformedIsABadCodewordOperand := by
  unfold Obligations.MalformedIsABadCodewordOperand
  intro i s t h
  refine ⟨?_, exec_res_eq_zero h .malformedCodeword nofun⟩
  rw [← parseBinary_eq_none_iff, ← parseChars_eq_none_iff]
  exact (exec_stat_eq_code_iff h .malformedCodeword).trans
    (perform_status_eq_malformedCodeword_iff s.rom i s.opa s.opb)

/-! ### UNMAPPED_SYNDROME (R125, R147) -/

theorem parseBinary_eq_some_iff (x : Operand) (r : Codeword) : parseBinary x = some r ↔ x = r.setWidth 64 := by
  constructor
  · intro h
    have hparts : x.extractLsb' 7 57 = 0#57 ∧ x.extractLsb' 0 7 = r := by simpa [parseBinary] using h
    obtain ⟨hhigh, hlow⟩ := hparts
    have hjoin : x.extractLsb' 7 57 ++ x.extractLsb' 0 7 = x :=
      (BitVec.extractLsb'_append_extractLsb'_eq_extractLsb' rfl).trans BitVec.extractLsb'_eq_self
    rw [hhigh, hlow] at hjoin
    exact hjoin.symm.trans (BitVec.setWidth_eq_append (by decide)).symm
  · rintro rfl
    exact parseBinary_setWidth r

/-- The lookup of R125 misses exactly on a nonzero syndrome without an entry. -/
theorem locateError_eq_none_iff (t : CodeTables) (r : Codeword) :
    locateError t r = none ↔ t.syndrome r ≠ 0#3 ∧ (t.lookup (t.syndrome r)).valid = false := by
  constructor
  · intro h
    by_contra hfound
    have hfound : t.syndrome r = 0#3 ∨ (t.lookup (t.syndrome r)).valid = true := by simpa [imp_iff_not_or] using hfound
    rw [locateError_eq_report hfound] at h
    cases h
  · rintro ⟨hs, hv⟩
    exact locateError_of_miss hs hv

theorem decodeWith_status_eq_unmappedSyndrome_iff (payload : Codeword → ErrorInfo → Codeword) (t : CodeTables)
    (parsed : Option Codeword) : (decodeWith payload t parsed).status = .unmappedSyndrome ↔
      ∃ r, parsed = some r ∧ locateError t r = none := by
  cases parsed with
  | none => simp
  | some r => cases h : locateError t r with
    | none => simp [decodeWith_of_miss h, h]
    | some e => simp [decodeWith_of_locateError h, h]

/-- The one way to UNMAPPED_SYNDROME: a decoder operation reads a word, and the lookup misses. -/
theorem perform_status_eq_unmappedSyndrome_iff (t : CodeTables) (i : Instr) (a b : Operand) :
    (perform t i a b).status = .unmappedSyndrome ↔ ∃ r : Codeword,
      (((i = .syn ∨ i = .corr ∨ i = .dec) ∧ parseBinary a = some r) ∨ (i = .decs ∧ parseChars a = some r)) ∧
        locateError t r = none := by
  cases i with
  | matmul m nA nB p => exact iff_of_false (matmulResult_status_ne .unmappedSyndrome nofun nofun) (by simp)
  | enc | encs => exact iff_of_false (encodeWith_status_ne .unmappedSyndrome nofun nofun) (by simp)
  | syn | corr | dec | decs => exact (decodeWith_status_eq_unmappedSyndrome_iff _ t _).trans (by simp)

/-- Settles O29: the two operand forms are read as `r` where the parses answer it, and with admissible tables every
completion is legal. -/
theorem unmappedIsATableMiss : Obligations.UnmappedIsATableMiss := by
  unfold Obligations.UnmappedIsATableMiss
  intro i s t h
  have hstat := exec_stat_eq_code_iff h .unmappedSyndrome
  refine ⟨?_, exec_res_eq_zero h .unmappedSyndrome nofun, fun ht hcode => ?_⟩
  · simp only [← parseBinary_eq_some_iff, ← parseChars_eq_some_iff_spellsCodeword, ← locateError_eq_none_iff]
    exact hstat.trans (perform_status_eq_unmappedSyndrome_iff s.rom i s.opa s.opb)
  · exact (perform_legal ht i s.opa s.opb).notUnmapped (hstat.1 hcode)

end Sys2Proof.Machine
end

section
/-! SUPPORT. Every run of an accepted configuration (`10_state.md` R35, `60_exceptions.md` R141,
`93_implementation_defined.md` U10). -/

namespace Sys2Proof.Machine

/-- A unit that `State.configure` accepts has admissible tables, LATENCY ≥ 1 and the reset values (R8). -/
theorem State.configure_eq_next {t : CodeTables} {n : Nat} {s : State} (h : State.configure t n = .next s) :
    t.Admissible ∧ 1 ≤ n ∧ s = State.resetWith t n := by
  by_cases ht : t.Admissible
  · obtain rfl | hn := n.eq_zero_or_pos
    · rw [State.configure_zero_of_admissible ht] at h
      cases h
    · rw [State.configure_of_admissible ht hn] at h
      cases h
      exact ⟨ht, hn, rfl⟩
  · rw [State.configure_of_not_admissible n ht] at h
    cases h

/-- The codes 0 to 6 name a status each. -/
theorem Status.ofCode?_ne_none_of_le {c : StatWord} (h : c.toNat ≤ 6) : Status.ofCode? c ≠ Option.none := by
  have key : ∀ k : Fin 7, Status.ofCode? (BitVec.ofNat 8 k.val) ≠ Option.none := by decide
  simpa using key ⟨c.toNat, by omega⟩

/-- Settles O58: legality does not speak of the inputs, so the first state has it with any of them, and every step
keeps it. -/
theorem everyConfiguredRunStaysLegal : Obligations.EveryConfiguredRunStaysLegal := by
  unfold Obligations.EveryConfiguredRunStaysLegal
  intro tables latency n inputs s₀ t hconf hrun
  obtain ⟨ht, hlat, rfl⟩ := State.configure_eq_next hconf
  have hinit : State.Legal { State.resetWith tables latency with inputs := inputs } :=
    State.legal_of_reset_values ht hlat rfl rfl rfl rfl
  have hlegal : t.Legal := runCycles_keeps stepKeepsLegalStates hinit hrun
  exact ⟨hlegal, Status.ofCode?_ne_none_of_le hlegal.statLegal⟩

end Sys2Proof.Machine
end

section
/-! SUPPORT. One cycle of the protocol: ports that nothing reads, the response pulse, and reset (`10_state.md` R21,
`70_reset_and_hazards.md` R160, R163, R165). -/

namespace Sys2Proof.Machine

/-! ### Ports without acceptance (R21, R165) -/

/-- A cycle reads the request only if it accepts it: not in a reset cycle, not in a BUSY cycle, not without
`req_valid`. -/
theorem cycle_eq_of_not_accepted {inp inp' : PortIn} {s : State} (hrst : inp.rst = inp'.rst)
    (h : inp.rst = true ∨ s.busy = true ∨ (inp.reqValid = false ∧ inp'.reqValid = false)) :
    cycle inp' s = cycle inp s := by
  unfold cycle
  rw [← hrst]
  obtain hr | hbusy | ⟨hv, hv'⟩ := h
  · rw [if_pos hr, if_pos hr]
  · obtain ⟨k, hk⟩ := Option.isSome_iff_exists.1 hbusy
    cases k <;> simp only [hk]
  · simp only [hv, hv', Bool.false_eq_true, if_false]

/-- Settles O46: a step is the cycle with the present inputs, and BUSY does not depend on the inputs. -/
theorem unacceptedRequestPortsHaveNoEffect : Obligations.UnacceptedRequestPortsHaveNoEffect := by
  unfold Obligations.UnacceptedRequestPortsHaveNoEffect
  intro s inp hrst h
  exact cycle_eq_of_not_accepted (s := s.dropInput) hrst h

/-! ### The response pulse (R163) -/

/-- Settles O49: of the two edges that show a response, the one that ends the last BUSY cycle does not follow a
completion cycle, in which BUSY = 0, and the other one needs LATENCY = 1 and an acceptance. -/
theorem responsePulseLastsOneCycle : Obligations.ResponsePulseLastsOneCycle := by
  unfold Obligations.ResponsePulseLastsOneCycle
  intro s t hs h hsv htv
  obtain ⟨hready, -⟩ := hs.pulse hsv
  obtain ⟨-, rfl⟩ | ⟨k, -, -, rfl⟩ | ⟨-, hlast, -⟩ | ⟨ha, hl, -⟩ | ⟨-, -, rfl⟩ | ⟨-, -, -, rfl⟩ := step_cases h
  · exact absurd htv (by simp)
  · exact absurd htv (by simp)
  · exact absurd (hready.symm.trans hlast) nofun
  · exact ⟨hl.antisymm hs.latencyPos, ha⟩
  · exact absurd htv (by simp)
  · exact absurd htv (by simp)

/-! ### Reset (R160) -/

theorem State.reqReady_of_rst {s : State} (h : s.nextInput.rst = true) : s.reqReady = false := by
  simp [State.reqReady, h]

theorem State.reqReady_of_ready {s : State} (hk : s.inFlight = none) (hr : s.nextInput.rst = false) :
    s.reqReady = true := by
  simp [State.reqReady, State.busy, hk, hr]

/-- Settles O52: the edge that ends a reset cycle is `State.applyReset`, which leaves a unit that is not BUSY. -/
theorem resetCycleGivesResetValues : Obligations.ResetCycleGivesResetValues := by
  unfold Obligations.ResetCycleGivesResetValues
  refine ⟨fun s hr => ?_, rfl, rfl, rfl, rfl, State.reqReady_of_ready rfl rfl⟩
  have hready : s.reqReady = false := State.reqReady_of_rst hr
  exact ⟨hready, by simp [State.accepts, hready],
    _, step_of_rst hr, rfl, rfl, rfl, rfl, rfl, State.reqReady_of_ready rfl⟩

end Sys2Proof.Machine
end

section
/-! SUPPORT. What a run accepts and answers, and how a reset ends a request (`70_reset_and_hazards.md` R161, R163,
R164). -/

namespace Sys2Proof.Machine

/-! ### The first cycle of a run -/

theorem responsesIn_succ_of_step {s t : State} (h : step s = .next t) (n : Nat) :
    responsesIn (n + 1) s = t.responseNow.toList ++ responsesIn n t := by
  simp [responsesIn, h]

theorem acceptedIn_succ_of_step {s t : State} (h : step s = .next t) (n : Nat) :
    acceptedIn (n + 1) s = s.acceptedNow.toList ++ acceptedIn n t := by
  simp [acceptedIn, h]

@[simp] theorem State.inputAt_zero (s : State) : s.inputAt 0 = s.nextInput := by
  simp [State.inputAt, State.nextInput, List.headD_eq_head?_getD, List.head?_eq_getElem?]

/-- A step uses up one entry of the host's list (log entry 4). -/
theorem step_inputs {s t : State} (h : step s = .next t) : t.inputs = s.inputs.tail := by
  obtain ⟨-, rfl⟩ | ⟨k, -, -, rfl⟩ | ⟨-, -, rfl⟩ | ⟨-, -, rfl⟩ | ⟨-, -, rfl⟩ | ⟨-, -, -, rfl⟩ := step_cases h <;> rfl

theorem step_inputAt {s t : State} (h : step s = .next t) (n : Nat) : t.inputAt n = s.inputAt (n + 1) := by
  simp [State.inputAt, step_inputs h]

theorem State.NoReset.nextInput_rst {s : State} {n : Nat} (h : s.NoReset (n + 1)) : s.nextInput.rst = false :=
  s.inputAt_zero ▸ h 0 n.succ_pos

theorem State.NoReset.of_step {s t : State} {n : Nat} (h : s.NoReset (n + 1)) (ht : step s = .next t) :
    t.NoReset n := fun k hk => step_inputAt ht k ▸ h (k + 1) (Nat.succ_lt_succ hk)

/-! ### The responses of a run (R58, R164) -/

theorem State.pending_of_inFlight {s : State} {k : Nat} (h : s.inFlight = some k) : s.pending = some s.latched := by
  simp [State.pending, State.busy, h]

theorem State.acceptedNow_of_inFlight {s : State} {k : Nat} (h : s.inFlight = some k) : s.acceptedNow = none :=
  if_neg (by simp [s.accepts_iff, h])

theorem State.pending_of_accepts {s : State} (h : s.accepts = true) : s.pending = none := by
  obtain ⟨-, -, hk⟩ := s.accepts_iff.1 h
  simp [State.pending, State.busy, hk]

theorem State.acceptedNow_of_accepts {s : State} (h : s.accepts = true) :
    s.acceptedNow = some s.nextInput.request := if_pos h

theorem State.acceptedNow_of_no_reqValid {s : State} (h : s.nextInput.reqValid = false) : s.acceptedNow = none :=
  if_neg (by simp [s.accepts_iff, h])

/-- `Exec` of a request, as the response port shows it (R22). -/
def answerTo (t : CodeTables) (r : Request) : StatWord × Operand := (execRequest t r).response

/-- The balance of one cycle without reset: what is shown and what is then in flight answer what was in flight and what
is accepted. -/
theorem step_answers {s t : State} (h : step s = .next t) (hr : s.nextInput.rst = false) :
    t.responseNow.toList ++ t.pending.toList.map (answerTo s.rom) =
      (s.pending.toList ++ s.acceptedNow.toList).map (answerTo s.rom) := by
  obtain ⟨hrst, -⟩ | ⟨k, -, hk, rfl⟩ | ⟨-, hk, rfl⟩ | ⟨ha, -, rfl⟩ | ⟨ha, -, rfl⟩ | ⟨-, -, hv, rfl⟩ := step_cases h
  · exact absurd hrst (by simp [hr])
  · rw [State.pending_of_inFlight hk, State.acceptedNow_of_inFlight hk]
    rfl
  · rw [State.pending_of_inFlight hk, State.acceptedNow_of_inFlight hk]
    rfl
  · rw [State.pending_of_accepts ha, State.acceptedNow_of_accepts ha]
    rfl
  · rw [State.pending_of_accepts ha, State.acceptedNow_of_accepts ha]
    rfl
  · rw [State.acceptedNow_of_no_reqValid hv, Option.toList_none, List.append_nil]
    rfl

/-- The balance of `step_answers`, summed over the cycles of a run without reset. -/
theorem exists_run_answers (n : Nat) {s : State} (hnr : s.NoReset n) : ∃ t, runCycles n s = .next t ∧
    responsesIn n s ++ t.pending.toList.map (answerTo s.rom) =
      (s.pending.toList ++ acceptedIn n s).map (answerTo s.rom) := by
  induction n generalizing s with
  | zero => exact ⟨s, rfl, by simp [responsesIn, acceptedIn]⟩
  | succ n ih =>
    obtain ⟨u, hu⟩ := exists_step_eq_next s
    obtain ⟨t, hrun, hrest⟩ := ih (hnr.of_step hu)
    rw [(step_keeps_parameters hu).1] at hrest
    refine ⟨t, (runCycles_succ_of_step hu n).trans hrun, ?_⟩
    calc responsesIn (n + 1) s ++ t.pending.toList.map (answerTo s.rom)
      _ = u.responseNow.toList ++ (u.pending.toList ++ acceptedIn n u).map (answerTo s.rom) := by
        rw [responsesIn_succ_of_step hu, List.append_assoc, hrest]
      _ = (s.pending.toList ++ s.acceptedNow.toList).map (answerTo s.rom) ++
          (acceptedIn n u).map (answerTo s.rom) := by
        rw [List.map_append, ← List.append_assoc, step_answers hu hnr.nextInput_rst]
      _ = (s.pending.toList ++ acceptedIn (n + 1) s).map (answerTo s.rom) := by
        rw [← List.map_append, List.append_assoc, ← acceptedIn_succ_of_step hu]

/-- Settles O50: the balance of one cycle, summed over the run. -/
theorem responsesAreExecOfAcceptedRequests : Obligations.ResponsesAreExecOfAcceptedRequests := by
  unfold Obligations.ResponsesAreExecOfAcceptedRequests
  exact fun n s hnr => exists_run_answers n hnr

/-! ### Back-to-back requests (R164) -/

theorem step_eq_transact {s : State} (ha : s.accepts = true) (hl : s.latency ≤ 1) :
    step s = .next (transact s.nextInput.request s.dropInput) := by
  rw [step_of_accepts ha, acceptCycle, if_pos (by simpa using hl), complete_eq_finish]
  rfl

/-- Settles O51, by induction on the requests: each is accepted by a ready unit, and its one cycle is one transaction,
which leaves the unit ready again. -/
theorem backToBackRequestsAreTransactions : Obligations.BackToBackRequestsAreTransactions := by
  unfold Obligations.BackToBackRequestsAreTransactions
  intro rs
  induction rs with
  | nil =>
    intro s _ _ hin
    have hempty : s.inputs = [] := hin
    rw [← hempty]
    rfl
  | cons r rs ih =>
    intro s hk hl hin
    have hnext : s.nextInput = PortIn.present r := by simp [State.nextInput, hin]
    have ha : s.accepts = true := s.accepts_iff.2 (by simp [hnext, hk, PortIn.present])
    have hstep : step s = .next (transact r s.dropInput) := by
      have h := step_eq_transact ha hl.le
      rwa [hnext] at h
    have hrest : (transact r s.dropInput).inputs = rs.map PortIn.present := congrArg List.tail hin
    rw [List.length_cons, runCycles_succ_of_step hstep]
    exact ih _ rfl hl hrest

/-! ### Reset before completion (R161) -/

/-- The next `n` cycles show no response, and the last of them is a reset cycle. -/
def State.SilentUntilReset (s : State) (n : Nat) : Prop :=
  responsesIn n s = [] ∧ ∃ u : State, runCycles n s = .next u.applyReset

theorem silentUntilReset_of_rst {s : State} (hr : s.nextInput.rst = true) : s.SilentUntilReset 1 :=
  have hstep := step_of_rst hr
  ⟨responsesIn_succ_of_step hstep 0, _, runCycles_succ_of_step hstep 0⟩

theorem State.SilentUntilReset.of_step {s t : State} {n : Nat} (h : t.SilentUntilReset n) (hstep : step s = .next t)
    (hrsp : t.rspValid = false) : s.SilentUntilReset (n + 1) := by
  obtain ⟨hsilent, u, hrun⟩ := h
  refine ⟨?_, u, (runCycles_succ_of_step hstep n).trans hrun⟩
  simp [responsesIn_succ_of_step hstep, State.responseNow, hrsp, hsilent]

/-- A reset within the `k + 1` BUSY cycles to come comes before the response. -/
theorem silentUntilReset_of_busy (j : Nat) {s : State} {k : Nat} (hk : s.inFlight = some k) (hj : j ≤ k)
    (hnr : s.NoReset j) (hr : (s.inputAt j).rst = true) : s.SilentUntilReset (j + 1) := by
  induction j generalizing s k with
  | zero => exact silentUntilReset_of_rst (s.inputAt_zero ▸ hr)
  | succ j ih =>
    obtain ⟨m, rfl⟩ : ∃ m, k = m + 1 := Nat.exists_eq_add_of_le' (Nat.one_le_of_lt hj)
    have hstep := step_of_waiting hnr.nextInput_rst hk
    exact (ih rfl (Nat.le_of_succ_le_succ hj) (hnr.of_step hstep) (step_inputAt hstep j ▸ hr)).of_step hstep rfl

/-- A reset from the cycle that presents a request to a ready unit up to the one before its completion comes before
the response: in the first of these cycles nothing is accepted, in the others the unit is BUSY with the request. -/
theorem silentUntilReset_of_request (j : Nat) {s : State} (hk : s.inFlight = none) (hv : s.nextInput.reqValid = true)
    (hj : j < s.latency) (hnr : s.NoReset j) (hr : (s.inputAt j).rst = true) : s.SilentUntilReset (j + 1) := by
  cases j with
  | zero => exact silentUntilReset_of_rst (s.inputAt_zero ▸ hr)
  | succ j =>
    have ha : s.accepts = true := s.accepts_iff.2 ⟨hv, hnr.nextInput_rst, hk⟩
    obtain ⟨u, hstep, hbusy⟩ := busyAfter_one ha (by omega)
    have hrest : u.SilentUntilReset (j + 1) :=
      silentUntilReset_of_busy j hbusy.inFlight (by omega) (hnr.of_step hstep) (step_inputAt hstep j ▸ hr)
    exact hrest.of_step hstep hbusy.rspValid

/-- Settles O53: the run is silent, and the reset edge leaves the reset values. -/
theorem resetAbandonsTheRequestInFlight : Obligations.ResetAbandonsTheRequestInFlight := by
  unfold Obligations.ResetAbandonsTheRequestInFlight
  intro s j hbusy hv hj hnr hr
  have hk : s.inFlight = none := by simpa [State.busy] using hbusy
  obtain ⟨hsilent, u, hrun⟩ := silentUntilReset_of_request j hk hv hj hnr hr
  exact ⟨hsilent, _, hrun, rfl, rfl, rfl, rfl⟩

end Sys2Proof.Machine
end
